-- ==== Sys2Proof/Word.lean ====
section
/-! DEFINITION. The word types of the encoder: the 32-bit host register (00_scope.md R9) and the 8-bit byte
of the pixel buffer and of the host bus. -/

namespace Sys2Proof

/-- A host register, a command word, a word moved on the host bus: 32 bits (R9). -/
abbrev Word := BitVec 32

/-- A byte of the pixel buffer (R35) or of a bus access (R63), a colour channel (R9): 8 bits. -/
abbrev Byte := BitVec 8

end Sys2Proof
end

