-- ==== Sys2Proof/Config.lean ====
section
/-! DEFINITION. The parameters of the encoder (00_scope.md R8, 10_state.md R47), the premises on them
(70_reset_and_hazards.md R224) as proof fields, the hardware's constants, and the free values. -/

namespace Sys2Proof

/-- The two channel orders (00_scope.md R13, 40_symbol_compiler.md R101). -/
inductive ChannelOrder where
  | grb
  | rgb
deriving DecidableEq, Repr, Inhabited

/-- A Device Profile: four pulse widths in nanoseconds and the channel order (40_symbol_compiler.md R101).
The proof fields are the premise of R102: every width of a present profile is positive. -/
structure Profile where
  t0HighNs : Nat
  t0LowNs  : Nat
  t1HighNs : Nat
  t1LowNs  : Nat
  order    : ChannelOrder
  t0High_pos : 1 ≤ t0HighNs
  t0Low_pos  : 1 ≤ t0LowNs
  t1High_pos : 1 ≤ t1HighNs
  t1Low_pos  : 1 ≤ t1LowNs
deriving DecidableEq, Repr

/-- The parameters that 00_scope.md R8 marks OPEN (the oracle apart), with the premises of
70_reset_and_hazards.md R224 and of 20_memory.md R61 (`BASE` is a multiple of 64) as proof fields.
The default values serve only to show that the type is inhabited; nothing rests on them. -/
structure OpenParams where
  /-- `F_TIMER`, in Hz. -/
  fTimer : Nat := 1
  /-- `PROFILES`: the entry of each 3-bit device type code, `none` where the type is unsupported. -/
  profiles : Vector (Option Profile) 8 := Vector.replicate 8 none
  /-- `BUF_CAPACITY`, in bytes. -/
  bufCapacity : Nat := 3
  /-- `PULSE_MEM_SYMBOLS`. -/
  pulseMemSymbols : Nat := 8
  /-- `BASE`, the host address of the register window. -/
  base : Nat := 0
  fTimer_pos : 1 ≤ fTimer := by decide
  bufCapacity_ge : 3 ≤ bufCapacity := by decide
  pulseMem_ge : 8 ≤ pulseMemSymbols := by decide
  base_aligned : base % 64 = 0 := by decide
deriving DecidableEq, Repr, Inhabited

/-- All the parameters of one encoder: the OPEN ones and the two reference times, which R8 fixes for this
hardware and lets a model vary, every positive value admitted. The range premise of 70_reset_and_hazards.md R225 is
on these and a divisor that a run uses together: `countsFit`. -/
structure Params extends OpenParams where
  /-- `TIMEOUT_NS`. -/
  timeoutNs : Nat
  /-- `IDLE_NS`. -/
  idleNs : Nat
  timeout_pos : 1 ≤ timeoutNs
  idle_pos : 1 ≤ idleNs
deriving DecidableEq, Repr

/-- `PROFILES(t)` (40_symbol_compiler.md R101). -/
def Params.profile (p : Params) (t : BitVec 3) : Option Profile := p.profiles[t.toNat]

/-- A question put to the channel oracle (00_scope.md R8): `configure(gpio, div)` at INIT
(41_pixel_buffer.md R122), `submit(len)` at a FLUSH's submit (43_transmission.md R166). -/
inductive ChanQuestion where
  | configure (gpio : BitVec 8) (div : Nat)
  | submit (len : Nat)
deriving DecidableEq, Repr

/-- The oracle's answer (R8). -/
inductive Verdict where
  | accept
  | refuse
deriving DecidableEq, Repr, Inhabited

/-- FREE VALUE: the OPEN parameters of the encoder (R8; notes/assumptions/1.md). No body: nothing in Lean can
say more of them than `OpenParams` does. -/
opaque Config.openParams : OpenParams

/-- FREE VALUE: `CHAN_VERDICT`, the oracle's answer at the n-th draw, where the run gives none
(R8, 92_eei_decisions.md D17; notes/assumptions/4.md). -/
opaque Config.chanVerdict : Nat → ChanQuestion → Verdict

/-- FREE VALUE: what a faulted read returns (20_memory.md R62, 93_implementation_defined.md I25;
notes/assumptions/7.md). -/
opaque Config.freeRead : Nat → Word

/-- FREE VALUE: how many ticks pass between two reads of a POLL (30_encoding.md R93; notes/assumptions/6.md). -/
opaque Config.pollGap : Nat → Nat

/-- The parameters of this hardware (R8): `TIMEOUT_NS` and `IDLE_NS` have the source's reference values. -/
def Config.params : Params :=
  { toOpenParams := Config.openParams
    timeoutNs := 1000000000
    idleNs := 50000
    timeout_pos := by decide
    idle_pos := by decide }

/-- `DUR_MAX`, the longest duration of a symbol segment in ticks (R8). -/
def Config.durMax : Nat := 32767

/-- `DIV_RESET`, the reset value of DIV (R8). -/
def Config.divReset : Word := 2#32

end Sys2Proof
end

