-- ==== Sys2Proof/Syntax.lean ====
section
/-! DEFINITION. The syntax: the commands of the opcode table (`Instr`), the register names of the window
(`Reg`), the host's script (`HostOp`, 30_encoding.md R93) and its pseudo-instructions (`Pseudo`, R94). -/

namespace Sys2Proof

/-- One constructor for each row of spec/opcode_table.json. `ignored` is bits 31:4 of the command word, which
do not change the command (30_encoding.md R81). -/
inductive Instr where
  | init (ignored : BitVec 28)
  | setPixel (ignored : BitVec 28)
  | flush (ignored : BitVec 28)
  | release (ignored : BitVec 28)
  | reserved0 (ignored : BitVec 28)
  | reserved5 (ignored : BitVec 28)
  | reserved6 (ignored : BitVec 28)
  | reserved7 (ignored : BitVec 28)
  | reserved8 (ignored : BitVec 28)
  | reserved9 (ignored : BitVec 28)
  | reservedA (ignored : BitVec 28)
  | reservedB (ignored : BitVec 28)
  | reservedC (ignored : BitVec 28)
  | reservedD (ignored : BitVec 28)
  | reservedE (ignored : BitVec 28)
  | reservedF (ignored : BitVec 28)
deriving DecidableEq, Repr

/-- The registers of the window by name (10_state.md R21). -/
inductive Reg where
  | cmd
  | cfg
  | div
  | index
  | color
  | status
  | result
  | zeroSym
  | oneSym
  | bufAddr
  | bufData
  | line
deriving DecidableEq, Repr

/-- What the host and the outside world do, one item after another. The first four are the forms of
30_encoding.md R93; `busRead` and `busWrite` are a raw access at a host address, of any width (20_memory.md
R61, R62), the data of a write as its bytes in ascending addresses; `reset` asserts and releases the reset
input (70_reset_and_hazards.md R220). -/
inductive HostOp where
  | wr (r : Reg) (v : Word)
  | rd (r : Reg)
  | poll (r : Reg) (mask value : Word)
  | ticks (n : Nat)
  | busRead (address nbytes : Nat)
  | busWrite (address : Nat) (data : List Byte)
  | reset
deriving DecidableEq, Repr

/-- What one step of the machine does: a tick, an access at an offset of the window, one read of a POLL, an
access that runs into the window from below it, an access elsewhere, a reset. -/
inductive Event where
  | tick
  | write (offset : Nat) (data : List Byte)
  | read (offset nbytes : Nat)
  | poll (r : Reg) (mask value : Word)
  | straddlingWrite
  | straddlingRead
  | elsewhere
  | reset
deriving DecidableEq, Repr

/-- The pseudo-instructions of 30_encoding.md R94, with the operands as the program writes them. -/
inductive Pseudo where
  | init (cfg div : Nat)
  | setpx (index r g b w : Nat)
  | flush
  | release
  | waitcmd
  | waittx
deriving DecidableEq, Repr

/-- The operands of the constant `CFGWORD` (R94). -/
structure CfgWord where
  dev   : Nat
  four  : Nat
  gpio  : Nat
  count : Nat
deriving DecidableEq, Repr

end Sys2Proof
end

