-- ==== Sys2Proof/WellFormed.lean ====
section
/-! DEFINITION. When a piece of syntax is well formed: the operands of the host's pseudo-instructions fit the
fields they are packed into. -/

namespace Sys2Proof

/-- Every command is well formed: the one operand-like field, the ignored bits, has its 28 bits by its type
and no value of it is illegal (30_encoding.md R81, R91). -/
def Instr.wellFormed : Instr → Bool
  | .init _ | .setPixel _ | .flush _ | .release _ => true
  | .reserved0 _ | .reserved5 _ | .reserved6 _ | .reserved7 _ => true
  | .reserved8 _ | .reserved9 _ | .reservedA _ | .reservedB _ => true
  | .reservedC _ | .reservedD _ | .reservedE _ | .reservedF _ => true

/-- CFGWORD's operands fit the fields of CFG: 3, 1, 8 and 16 bits (30_encoding.md R84, R94). -/
def CfgWord.wellFormed (c : CfgWord) : Bool :=
  decide (c.dev < 2 ^ 3) && decide (c.four < 2 ^ 1) && decide (c.gpio < 2 ^ 8) && decide (c.count < 2 ^ 16)

/-- INIT's operands are 32-bit words (`imm32`, R93); SETPX's index has 32 bits and its channels 8 bits each
(R85, R86, R94). -/
def Pseudo.wellFormed : Pseudo → Bool
  | .init cfg div => decide (cfg < 2 ^ 32) && decide (div < 2 ^ 32)
  | .setpx index r g b w =>
    decide (index < 2 ^ 32) && decide (r < 2 ^ 8) && decide (g < 2 ^ 8) && decide (b < 2 ^ 8) && decide (w < 2 ^ 8)
  | .flush | .release | .waitcmd | .waittx => true

end Sys2Proof
end

