-- ==== Sys2Proof/Decode.lean ====
section
/-! DEFINITION. The decoder of the command word, from the opcode table of 30_encoding.md R82, and the encoder
written from the same table; the byte order of the host bus (20_memory.md R63). -/

namespace Sys2Proof

/-- The bytes of a word in ascending bus addresses: byte k is bits 8k+7:8k (20_memory.md R63). -/
def wordBytes (v : Word) : List Byte :=
  [v.extractLsb' 0 8, v.extractLsb' 8 8, v.extractLsb' 16 8, v.extractLsb' 24 8]

/-- The word of four bus bytes, little-endian (R63). -/
def wordOfBytes (b0 b1 b2 b3 : Byte) : Word := b3 ++ b2 ++ b1 ++ b0

/-- One row of the opcode table: `(v & mask) = pattern` performs the command (30_encoding.md R82). -/
structure OpcodeRow where
  mask    : Word
  pattern : Word
  make    : BitVec 28 → Instr

/-- The opcode map, one row for each row of spec/opcode_table.json (R82). -/
def opcodeTable : List OpcodeRow :=
  [ ⟨0x0000000F#32, 0x00000001#32, .init⟩,
    ⟨0x0000000F#32, 0x00000002#32, .setPixel⟩,
    ⟨0x0000000F#32, 0x00000003#32, .flush⟩,
    ⟨0x0000000F#32, 0x00000004#32, .release⟩,
    ⟨0x0000000F#32, 0x00000000#32, .reserved0⟩,
    ⟨0x0000000F#32, 0x00000005#32, .reserved5⟩,
    ⟨0x0000000F#32, 0x00000006#32, .reserved6⟩,
    ⟨0x0000000F#32, 0x00000007#32, .reserved7⟩ ] ++
  [ ⟨0x0000000F#32, 0x00000008#32, .reserved8⟩,
    ⟨0x0000000F#32, 0x00000009#32, .reserved9⟩,
    ⟨0x0000000F#32, 0x0000000A#32, .reservedA⟩,
    ⟨0x0000000F#32, 0x0000000B#32, .reservedB⟩,
    ⟨0x0000000F#32, 0x0000000C#32, .reservedC⟩,
    ⟨0x0000000F#32, 0x0000000D#32, .reservedD⟩,
    ⟨0x0000000F#32, 0x0000000E#32, .reservedE⟩,
    ⟨0x0000000F#32, 0x0000000F#32, .reservedF⟩ ]

/-- Why bytes are not a command: fewer than the four bytes every command has (R80, R92), or no row of the
table matches (no word is so: every opcode has a row). -/
inductive DecodeError where
  | tooShort
  | noMatchingRow
deriving DecidableEq, Repr

/-- The command a word stands for: the first row whose pattern it has (R82); bits 31:4 are kept as they are. -/
def decodeWordIn : List OpcodeRow → Word → Option Instr
  | [], _ => none
  | row :: rows, v =>
    if v &&& row.mask = row.pattern then some (row.make (v.extractLsb' 4 28)) else decodeWordIn rows v

def decodeWord (v : Word) : Option Instr := decodeWordIn opcodeTable v

/-- The decoder, total on any bytes: the command at their head, and the bytes after it. -/
def decode : List Byte → Except DecodeError (Instr × List Byte)
  | b0 :: b1 :: b2 :: b3 :: rest =>
    match decodeWord (wordOfBytes b0 b1 b2 b3) with
    | some i => .ok (i, rest)
    | none => .error .noMatchingRow
  | _ => .error .tooShort

/-- The opcode of a command (R82). -/
def Instr.opcode : Instr → BitVec 4
  | .init _ => 0x1#4
  | .setPixel _ => 0x2#4
  | .flush _ => 0x3#4
  | .release _ => 0x4#4
  | .reserved0 _ => 0x0#4
  | .reserved5 _ => 0x5#4
  | .reserved6 _ => 0x6#4
  | .reserved7 _ => 0x7#4
  | .reserved8 _ => 0x8#4
  | .reserved9 _ => 0x9#4
  | .reservedA _ => 0xA#4
  | .reservedB _ => 0xB#4
  | .reservedC _ => 0xC#4
  | .reservedD _ => 0xD#4
  | .reservedE _ => 0xE#4
  | .reservedF _ => 0xF#4

/-- Bits 31:4 of a command (R81). -/
def Instr.ignoredBits : Instr → BitVec 28
  | .init g | .setPixel g | .flush g | .release g => g
  | .reserved0 g | .reserved5 g | .reserved6 g | .reserved7 g => g
  | .reserved8 g | .reserved9 g | .reservedA g | .reservedB g => g
  | .reservedC g | .reservedD g | .reservedE g | .reservedF g => g

/-- The command word: OP in bits 3:0, the ignored bits in 31:4 (R81). -/
def encode (i : Instr) : Word := i.ignoredBits ++ i.opcode

/-- The bytes of the command word on the bus. -/
def encodeBytes (i : Instr) : List Byte := wordBytes (encode i)

/-- The host's window on the decoder: the command of the word `w` of `nbits` bits, the bits above them zero,
laid out in the bus's byte order. -/
def decodeTableWord (nbits w : Nat) : Option Instr :=
  match decode (wordBytes (BitVec.ofNat 32 (w % 2 ^ nbits))) with
  | .ok (i, _) => some i
  | .error _ => none

end Sys2Proof
end

