-- ==== Sys2Proof/Machine/State.lean ====
section
/-! DEFINITION. The state of one encoder (10_state.md R20 to R42), the ways a step can stop, and the state
after reset (R46). All of it is plain data. -/

namespace Sys2Proof.Machine

/-- A level of the data line: `true` is logic-high, 1, and `false` logic-low, 0 (10_state.md R41). -/
abbrev Level := Bool

/-- A Waveform Symbol (40_symbol_compiler.md R104): `levelA` for `durationA` ticks, then `levelB` for
`durationB` ticks. -/
structure Symbol where
  levelA    : Level
  durationA : Nat
  levelB    : Level
  durationB : Nat
deriving DecidableEq, Repr

/-- The pixel buffer's bytes as cells at their byte addresses. The canonical form, `Memory.wf`: addresses
strictly rising, no cell that holds what an unlisted address reads as, which is 0, INIT's fill
(10_state.md R35, 41_pixel_buffer.md R123; notes/assumptions/10.md). -/
abbrev Memory := List Host.Cell

/-- The stored host-visible registers (10_state.md R20). -/
structure Regs where
  cfg     : Word
  div     : Word
  index   : Word
  color   : Word
  result  : Word
  bufAddr : Word
deriving DecidableEq, Repr

/-- The strip record of an initialised encoder (10_state.md R34). The buffer's length is not stored: it is
`Strip.bufLen` (R36). -/
structure Strip where
  dev          : BitVec 3
  four         : Bool
  count        : Nat
  gpio         : BitVec 8
  div          : Nat
  order        : ChannelOrder
  zeroSym      : Symbol
  oneSym       : Symbol
  idleTicks    : Nat
  timeoutTicks : Nat
  buf          : Memory
deriving DecidableEq, Repr

/-- The segment of the head symbol being played (R38). -/
inductive Seg where
  | a
  | b
deriving DecidableEq, Repr

/-- The waveform generator (R38); `mem` is the pulse memory, its head the current symbol (R39). -/
structure Chan where
  busy   : Bool
  mem    : List Symbol
  offset : Nat
  seg    : Seg
  rem    : Nat
deriving DecidableEq, Repr

/-- The phases of the transmission controller (R40). -/
inductive Phase where
  | ready
  | waitDone
  | idleGap
deriving DecidableEq, Repr

/-- The transmission controller (R40). -/
structure Ctl where
  phase   : Phase
  waitCnt : Nat
  gapCnt  : Nat
deriving DecidableEq, Repr

/-- The kinds of model fault (60_exceptions.md R200). -/
inductive ModelFault where
  | cmdOverlap
  | busAccess
deriving DecidableEq, Repr

/-- A set of model faults, one Bool for each kind (10_state.md R42). -/
structure FaultSet where
  cmdOverlap : Bool
  busAccess  : Bool
deriving DecidableEq, Repr

/-- The MODEL's own fields, not the spec's: what the world outside the encoder does and sees.
`script` is what the host does next (notes/assumptions/5.md); `received` the words its reads returned, oldest
first; `verdicts` the oracle's next answers; `asked` the questions put to it, oldest first
(notes/assumptions/4.md); `draws` the counter the free values are applied to. -/
structure Env where
  script   : List HostOp
  received : List Word
  verdicts : List Verdict
  asked    : List ChanQuestion
  draws    : Nat
deriving DecidableEq, Repr

/-- The state (10_state.md R20): the parameters of the instance, the registers, the strip record, the
waveform generator, the controller, the line and its history, the model faults, and the model's own fields.
No step changes `params` (R47; notes/assumptions/1.md). -/
structure State where
  params : Params
  regs   : Regs
  strip  : Option Strip
  chan   : Chan
  ctl    : Ctl
  line   : Level
  trace  : List Level
  faults : FaultSet
  env    : Env
deriving DecidableEq, Repr

/-- Where a tick stops. Each is raised by a tick alone, in a state that R38 or R45 says no run reaches and for
which the tick's pseudocode reads something absent. Safe: no claim is made of such a state
(notes/assumptions/13.md). -/
inductive Fault where
  /-- Raised by the waveform generator's tick: busy, and the pulse memory is empty (R38 excludes it). Safe. -/
  | noHeadSymbol
  /-- Raised by the waveform generator's tick: busy, and no tick of the segment is left (R38 excludes it). Safe. -/
  | noSegmentTicks
  /-- Raised by a refill, a timed wait, the idle gap or a submit: there is no strip record (R37, R40 exclude it). Safe. -/
  | noStrip
  /-- Raised by a submit: the translator gave no symbol for the whole buffer (R146 excludes it). Safe. -/
  | emptyFrame
deriving DecidableEq, Repr

/-- Where a step has no meaning. -/
inductive Refusal where
  /-- An instruction without a meaning yet, by its mnemonic; raised in `exec`'s arms only. Safe. -/
  | notModelled (mnemonic : String)
  /-- Raised by a CMD write whose word the decoder rejects. No word is so (every opcode has a row). Safe. -/
  | undecodable
deriving DecidableEq, Repr

/-- The waveform generator when idle (10_state.md R38). -/
def Chan.idle : Chan := ⟨false, [], 0, .a, 0⟩

/-- The controller in READY (R40). -/
def Ctl.ready : Ctl := ⟨.ready, 0, 0⟩

/-- The register values after reset (R46). -/
def Regs.reset : Regs :=
  { cfg := 0#32, div := Config.divReset, index := 0#32, color := 0#32, result := 0#32, bufAddr := 0#32 }

/-- The model's own fields at launch: nothing scripted, nothing seen, nothing drawn. -/
def Env.launch : Env := ⟨[], [], [], [], 0⟩

/-- The machine right after power-on reset (R46, 70_reset_and_hazards.md R220, R224): the OPEN parameters free,
no model fault recorded. -/
def State.reset : State :=
  { params := Config.params
    regs   := Regs.reset
    strip  := none
    chan   := Chan.idle
    ctl    := Ctl.ready
    line   := false
    trace  := []
    faults := ⟨false, false⟩
    env    := Env.launch }

end Sys2Proof.Machine
end

