-- ==== Sys2Proof/Machine/Flags.lean ====
section
/-! DEFINITION. Every flag of the encoder (10_state.md R44): the STATUS word and the RESULT word, with the
result codes and reasons of 60_exceptions.md R190 and R191. -/

namespace Sys2Proof.Machine

/-- The errors a command can end with: the rows of the reason table (60_exceptions.md R191) but success and
pending. -/
inductive CmdError where
  | notInit
  | indexRange
  | unsupportedType
  | zeroCount
  | busy
  | alreadyInit
  | badDivisor
  | symbolRange
  | reservedOp
  | alloc
  | waitTimeout
  | configRefused
  | submitRefused
deriving DecidableEq, Repr

/-- RESULT.CODE of an error: 1 ArgumentError, 2 ResourceError, 3 TimingError, 4 HardwareError (R190, R191). -/
def CmdError.code : CmdError → Nat
  | .notInit | .indexRange | .unsupportedType | .zeroCount | .busy => 1
  | .alreadyInit | .badDivisor | .symbolRange | .reservedOp => 1
  | .alloc => 2
  | .waitTimeout => 3
  | .configRefused | .submitRefused => 4

/-- RESULT.REASON of an error (R191). -/
def CmdError.reason : CmdError → Nat
  | .notInit => 1
  | .indexRange => 2
  | .unsupportedType => 3
  | .zeroCount => 4
  | .busy => 5
  | .alreadyInit => 6
  | .badDivisor => 7
  | .symbolRange => 8
  | .reservedOp => 9
  | .alloc => 1
  | .waitTimeout => 1
  | .configRefused => 1
  | .submitRefused => 2

/-- `RESULT = CODE | (REASON << 8)` (30_encoding.md R90). -/
def resultWord (code reason : Nat) : Word := BitVec.ofNat 32 code ||| (BitVec.ofNat 32 reason <<< 8)

/-- The RESULT word of an error. -/
def CmdError.word (e : CmdError) : Word := resultWord e.code e.reason

/-- The RESULT word of success: code OK, reason 0 (R190). -/
def okWord : Word := resultWord 0 0

/-- The RESULT word while a FLUSH is in progress: code PENDING, reason 0 (60_exceptions.md R199). -/
def pendingWord : Word := resultWord 7 0

/-- `RESULT.CODE = RESULT[3:0]` (10_state.md R28). -/
def resultCode (v : Word) : BitVec 4 := v.extractLsb' 0 4

/-- `RESULT.REASON = RESULT[15:8]` (R28). -/
def resultReason (v : Word) : BitVec 8 := v.extractLsb' 8 8

/-- A flag as a bit of a word. -/
def flagBit (b : Bool) : Word := if b then 1#32 else 0#32

/-- `STATUS.INIT`: the strip is initialised (10_state.md R27). -/
def statusInit (s : State) : Bool := s.strip.isSome

/-- `STATUS.TX`: a frame is in flight (R27, R37). -/
def statusTx (s : State) : Bool := s.chan.busy

/-- `STATUS.CMD_BUSY`: a FLUSH is in its sequence (R27). -/
def statusCmdBusy (s : State) : Bool := decide (s.ctl.phase ≠ .ready)

/-- `STATUS.PHASE` (R27). -/
def phaseCode : Phase → Word
  | .ready => 0#32
  | .waitDone => 1#32
  | .idleGap => 2#32

/-- The STATUS word (R27): INIT, TX << 1, CMD_BUSY << 2, PHASE << 4. -/
def statusWord (s : State) : Word :=
  flagBit (statusInit s) ||| (flagBit (statusTx s) <<< 1) ||| (flagBit (statusCmdBusy s) <<< 2)
    ||| (phaseCode s.ctl.phase <<< 4)

end Sys2Proof.Machine
end

