-- ==== Sys2Proof/Machine/Operands.lean ====
section
/-! DEFINITION. Every operand form of the commands: the fields each reads from a register at the CMD write
(30_encoding.md R83 to R87), and the writable masks of the registers that hold them (10_state.md R23, R24). -/

namespace Sys2Proof.Machine

/-- `dev = CFG[2:0]` (R84). -/
def cfgDev (v : Word) : BitVec 3 := v.extractLsb' 0 3

/-- `four = (CFG[3] = 1)` (R84). -/
def cfgFour (v : Word) : Bool := v.getLsbD 3

/-- `gpio = CFG[15:8]` (R84). -/
def cfgGpio (v : Word) : BitVec 8 := v.extractLsb' 8 8

/-- `count = CFG[31:16]` (R84). -/
def cfgCount (v : Word) : Nat := (v.extractLsb' 16 16).toNat

/-- `div = DIV[7:0]` (R87). -/
def divDivisor (v : Word) : Nat := (v.extractLsb' 0 8).toNat

/-- `index = INDEX[31:0]`, compared whole (R86). -/
def indexValue (v : Word) : Nat := v.toNat

/-- `r = COLOR[7:0]` (R85). -/
def colorR (v : Word) : Byte := v.extractLsb' 0 8

/-- `g = COLOR[15:8]` (R85). -/
def colorG (v : Word) : Byte := v.extractLsb' 8 8

/-- `b = COLOR[23:16]` (R85). -/
def colorB (v : Word) : Byte := v.extractLsb' 16 8

/-- `w = COLOR[31:24]` (R85). -/
def colorW (v : Word) : Byte := v.extractLsb' 24 8

/-- The writable bits of CFG; bits 7:4 are reserved (10_state.md R23). -/
def cfgMask : Word := 0xFFFFFF0F#32

/-- The writable bits of DIV; bits 31:8 are reserved (10_state.md R24). -/
def divMask : Word := 0x000000FF#32

end Sys2Proof.Machine
end

