-- ==== Sys2Proof/Machine/Ops.lean ====
section
/-! DEFINITION. The named operations on the state: the pixel buffer's bytes, the updates every rule is written
with, how a command ends (00_scope.md R11), model faults (60_exceptions.md R200), the channel oracle (R8) and
the reset input (70_reset_and_hazards.md R220). -/

namespace Sys2Proof.Machine

/-! ## The pixel buffer -/

/-- What a byte that no cell lists reads as: 0, the fill of INIT (41_pixel_buffer.md R123). -/
def Memory.unlisted : Byte := 0#8

/-- The byte at an address. -/
def Memory.read : Memory → Nat → Byte
  | [], _ => Memory.unlisted
  | (b, v) :: t, a => if b = a then v else Memory.read t a

/-- No cell at an address: the byte there reads as `Memory.unlisted`. -/
def Memory.erase (m : Memory) (a : Nat) : Memory := m.filter (fun c => decide (c.1 ≠ a))

/-- A cell put at its place in the rising order. -/
def Memory.insert : Memory → Nat → Byte → Memory
  | [], a, v => [(a, v)]
  | (b, w) :: t, a, v =>
    if a < b then (a, v) :: (b, w) :: t
    else if a = b then (a, v) :: t
    else (b, w) :: Memory.insert t a v

/-- `buf[a] <- v`, in the canonical form. -/
def Memory.write (m : Memory) (a : Nat) (v : Byte) : Memory :=
  if v = Memory.unlisted then m.erase a else m.insert a v

/-- `buf[a + k] <- bytes[k]` for every k, in ascending order (41_pixel_buffer.md R125). -/
def Memory.writeBytes : Memory → Nat → List Byte → Memory
  | m, _, [] => m
  | m, a, v :: vs => Memory.writeBytes (m.write a v) (a + 1) vs

/-- The canonical form: addresses strictly rising, no cell that holds the unlisted value. -/
abbrev Memory.wf (m : Memory) : Prop :=
  m.Pairwise (fun c d => c.1 < d.1) ∧ ∀ c ∈ m, c.2 ≠ Memory.unlisted

/-- `channel_size`: 4 on a four-channel strip, else 3 (10_state.md R36). -/
def channelSize (four : Bool) : Nat := if four then 4 else 3

/-- `len(s.strip.buf) = count * channel_size` (R36). -/
def Strip.bufLen (st : Strip) : Nat := st.count * channelSize st.four

/-- The pixel buffer as the spec's list of bytes, byte 0 first (R35). -/
def Strip.bytes (st : Strip) : List Byte := (List.range st.bufLen).map st.buf.read

/-! ## Updates -/

def State.setStrip (o : Option Strip) (s : State) : State := { s with strip := o }

def State.setChan (c : Chan) (s : State) : State := { s with chan := c }

def State.setCtl (c : Ctl) (s : State) : State := { s with ctl := c }

def State.setScript (l : List HostOp) (s : State) : State := { s with env := { s.env with script := l } }

/-- `x[RESULT] <- v`. -/
def State.setResult (v : Word) (s : State) : State := { s with regs := { s.regs with result := v } }

/-- `x[CFG] <- v`, the reserved bits dropped (10_state.md R23). -/
def State.setCfg (v : Word) (s : State) : State := { s with regs := { s.regs with cfg := v &&& cfgMask } }

/-- `x[DIV] <- v`, the reserved bits dropped (R24). -/
def State.setDiv (v : Word) (s : State) : State := { s with regs := { s.regs with div := v &&& divMask } }

/-- `x[INDEX] <- v` (R25). -/
def State.setIndex (v : Word) (s : State) : State := { s with regs := { s.regs with index := v } }

/-- `x[COLOR] <- v` (R26). -/
def State.setColor (v : Word) (s : State) : State := { s with regs := { s.regs with color := v } }

/-- `x[BUF_ADDR] <- v` (R30). -/
def State.setBufAddr (v : Word) (s : State) : State := { s with regs := { s.regs with bufAddr := v } }

/-- One tick's level on the data line, appended to the history (10_state.md R41, 43_transmission.md R171). -/
def State.drive (l : Level) (s : State) : State := { s with line := l, trace := s.trace ++ [l] }

/-- The host takes the word its read returned. -/
def State.receive (v : Word) (s : State) : State :=
  { s with env := { s.env with received := s.env.received ++ [v] } }

/-- One more free value drawn. -/
def State.countDraw (s : State) : State := { s with env := { s.env with draws := s.env.draws + 1 } }

/-! ## How a command ends -/

/-- `raise <error>(<reason>)`: RESULT takes the code and the reason, and nothing else changes (00_scope.md R11,
60_exceptions.md R193). This is the whole of taking an error: no vector, no saved state (R193), and no return
from it (R195). -/
def raise (e : CmdError) (s : State) : State := s.setResult e.word

/-- `complete OK` (00_scope.md R11). -/
def complete (s : State) : State := s.setResult okWord

/-! ## Model faults -/

/-- `faults ∪ {kind}` (60_exceptions.md R200). -/
def FaultSet.add (k : ModelFault) (f : FaultSet) : FaultSet :=
  match k with
  | .cmdOverlap => { f with cmdOverlap := true }
  | .busAccess => { f with busAccess := true }

/-- Whether a kind is in the set. -/
def FaultSet.has (k : ModelFault) (f : FaultSet) : Bool :=
  match k with
  | .cmdOverlap => f.cmdOverlap
  | .busAccess => f.busAccess

/-- `raise Fault(kind)`: the fault is recorded, and the access has no other effect (R200). -/
def recordFault (k : ModelFault) (s : State) : State := { s with faults := s.faults.add k }

/-- A CMD write's command, issued in READY and dropped with CMD_OVERLAP in any other phase (20_memory.md R65,
60_exceptions.md R201). Every command's meaning is this over its own rule. -/
def issue (command : State → State) (s : State) : Host.Outcome State Fault Refusal :=
  .next (if s.ctl.phase = .ready then command s else recordFault .cmdOverlap s)

/-! ## The channel oracle -/

/-- The oracle's answer to its next question: the run's own, and a free value beyond it
(00_scope.md R8; notes/assumptions/4.md). -/
def verdictFor (q : ChanQuestion) (s : State) : Verdict :=
  match s.env.verdicts with
  | v :: _ => v
  | [] => Config.chanVerdict s.env.draws q

/-- A question has been put to the oracle and answered. -/
def noteQuestion (q : ChanQuestion) (s : State) : State :=
  { s with env := { s.env with
      verdicts := s.env.verdicts.tail
      asked := s.env.asked ++ [q]
      draws := s.env.draws + 1 } }

/-! ## Reset -/

/-- The reset input: every piece of state at the value of 10_state.md R46, the model faults unchanged
(70_reset_and_hazards.md R220). The parameters and the world outside stay. -/
def resetEncoder (s : State) : State :=
  { s with
    regs  := Regs.reset
    strip := none
    chan  := Chan.idle
    ctl   := Ctl.ready
    line  := false
    trace := [] }

end Sys2Proof.Machine
end

