-- ==== Sys2Proof/Machine/SymbolCompiler.lean ====
section
/-! DEFINITION. The symbol compiler and the tick counts (40_symbol_compiler.md R103 to R111), and the packing of
a symbol into its word (30_encoding.md R88). Pure functions of the parameters and the latched divisor. -/

namespace Sys2Proof.Machine

/-- `round_div(a, b)`: the nearest natural, ties upward (00_scope.md R10). -/
def roundDiv (a b : Nat) : Nat := (2 * a + b) / (2 * b)

/-- `ceil_div(a, b)` (00_scope.md R10). -/
def ceilDiv (a b : Nat) : Nat := (a + b - 1) / b

/-- The nanoseconds of a second, the `10^9` of R105, R110 and R111. -/
def nsPerSecond : Nat := 1000000000

/-- `ticks(w_ns, F, div)` (R105). -/
def ticks (widthNs fTimer div : Nat) : Nat := roundDiv (widthNs * fTimer) (div * nsPerSecond)

/-- One symbol: high for the high width, then low for the low width (R103, R104). -/
def compileSymbol (highNs lowNs fTimer div : Nat) : Symbol :=
  { levelA := true, durationA := ticks highNs fTimer div, levelB := false, durationB := ticks lowNs fTimer div }

/-- `compile_symbols(profile, F_TIMER, div)`: the zero symbol and the one symbol (R103). -/
def compileSymbols (p : Profile) (fTimer div : Nat) : Symbol × Symbol :=
  (compileSymbol p.t0HighNs p.t0LowNs fTimer div, compileSymbol p.t1HighNs p.t1LowNs fTimer div)

/-- A duration that fits the symbol word: 1 to DUR_MAX (R107). -/
def durationOk (d : Nat) : Bool := decide (1 ≤ d) && decide (d ≤ Config.durMax)

/-- `sym_ok(z, o)` (R107). -/
def symOk (z o : Symbol) : Bool :=
  durationOk z.durationA && durationOk z.durationB && durationOk o.durationA && durationOk o.durationB

/-- `idle_ticks` (R110). -/
def idleTicksFor (p : Params) (div : Nat) : Nat := ceilDiv (p.idleNs * p.fTimer) (div * nsPerSecond)

/-- `timeout_ticks` (R111). -/
def timeoutTicksFor (p : Params) (div : Nat) : Nat := ceilDiv (p.timeoutNs * p.fTimer) (div * nsPerSecond)

/-- The symbol word: DUR_A 14:0, LVL_A 15, DUR_B 30:16, LVL_B 31 (30_encoding.md R88). -/
def symbolWord (y : Symbol) : Word :=
  BitVec.ofNat 32 y.durationA ||| (flagBit y.levelA <<< 15) ||| (BitVec.ofNat 32 y.durationB <<< 16)
    ||| (flagBit y.levelB <<< 31)

end Sys2Proof.Machine
end

