-- ==== Sys2Proof/Machine/PixelBuffer.lean ====
section
/-! DEFINITION. The pixel buffer commands INIT, SET_PIXEL and RELEASE (41_pixel_buffer.md R120 to R130). -/

namespace Sys2Proof.Machine

/-- `pack(order, four, r, g, b, w)`: the bytes of one pixel (R120); white is dropped on a three-channel strip
(R128). -/
def pack (order : ChannelOrder) (four : Bool) (r g b w : Byte) : List Byte :=
  (match order with
    | .grb => [g, r, b]
    | .rgb => [r, g, b]) ++ (if four then [w] else [])

/-- The strip record a successful INIT latches (R121): the operands, the profile's order, the two symbols, the
two tick counts, and a buffer of zero bytes (R123). -/
def initStrip (p : Params) (prof : Profile) (cfg div : Word) : Strip :=
  { dev := cfgDev cfg
    four := cfgFour cfg
    count := cfgCount cfg
    gpio := cfgGpio cfg
    div := divDivisor div
    order := prof.order
    zeroSym := (compileSymbols prof p.fTimer (divDivisor div)).1
    oneSym := (compileSymbols prof p.fTimer (divDivisor div)).2
    idleTicks := idleTicksFor p (divDivisor div)
    timeoutTicks := timeoutTicksFor p (divDivisor div)
    buf := [] }

/-- The last step of INIT: ask the channel, then bind it and latch the strip, or fail (R121, R122). -/
def initBind (st : Strip) (s : State) : State :=
  match verdictFor (.configure st.gpio st.div) s with
  | .refuse => raise .configRefused (noteQuestion (.configure st.gpio st.div) s)
  | .accept => complete ((noteQuestion (.configure st.gpio st.div) s).setStrip (some st))

/-- INIT on an uninitialised encoder whose device type has the profile `prof`: the checks from ZERO_COUNT to
ALLOC, in the order of 60_exceptions.md R196. -/
def initWithProfile (prof : Profile) (s : State) : State :=
  if cfgCount s.regs.cfg = 0 then raise .zeroCount s
  else if divDivisor s.regs.div = 0 then raise .badDivisor s
  else if symOk (compileSymbols prof s.params.fTimer (divDivisor s.regs.div)).1
      (compileSymbols prof s.params.fTimer (divDivisor s.regs.div)).2 = false then raise .symbolRange s
  else if s.params.bufCapacity < cfgCount s.regs.cfg * channelSize (cfgFour s.regs.cfg) then raise .alloc s
  else initBind (initStrip s.params prof s.regs.cfg s.regs.div) s

/-- The rule of INIT (R121). -/
def initCommand (s : State) : State :=
  match s.strip with
  | some _ => raise .alreadyInit s
  | none =>
    match s.params.profile (cfgDev s.regs.cfg) with
    | none => raise .unsupportedType s
    | some prof => initWithProfile prof s

/-- The bytes SET_PIXEL writes for a colour (R125). -/
def pixelBytes (st : Strip) (color : Word) : List Byte :=
  pack st.order st.four (colorR color) (colorG color) (colorB color) (colorW color)

/-- The buffer address of a pixel's first byte: `index * channel_size` (R125, 20_memory.md R67). -/
def pixelAddress (st : Strip) (index : Nat) : Nat := index * channelSize st.four

/-- The strip with one pixel's bytes written. -/
def Strip.withPixel (st : Strip) (index : Nat) (color : Word) : Strip :=
  { st with buf := st.buf.writeBytes (pixelAddress st index) (pixelBytes st color) }

/-- The rule of SET_PIXEL (R125), its checks in the order NOT_INIT, INDEX_RANGE, BUSY (60_exceptions.md R197). -/
def setPixelCommand (s : State) : State :=
  match s.strip with
  | none => raise .notInit s
  | some st =>
    if st.count ≤ indexValue s.regs.index then raise .indexRange s
    else if s.chan.busy then raise .busy s
    else complete (s.setStrip (some (st.withPixel (indexValue s.regs.index) s.regs.color)))

/-- The rule of RELEASE (R130), its checks in the order NOT_INIT, BUSY (60_exceptions.md R197). -/
def releaseCommand (s : State) : State :=
  match s.strip with
  | none => raise .notInit s
  | some _ => if s.chan.busy then raise .busy s else complete (s.setStrip none)

/-- INIT (R121). -/
def execInit (s : State) : Host.Outcome State Fault Refusal := issue initCommand s

/-- SET_PIXEL (R125). -/
def execSetPixel (s : State) : Host.Outcome State Fault Refusal := issue setPixelCommand s

/-- RELEASE (R130). -/
def execRelease (s : State) : Host.Outcome State Fault Refusal := issue releaseCommand s

end Sys2Proof.Machine
end

