-- ==== Sys2Proof/Machine/Reserved.lean ====
section
/-! DEFINITION. The reserved opcodes 0x0 and 0x5 to 0xF (41_pixel_buffer.md R131): each completes with
ArgumentError RESERVED_OP and changes nothing else. -/

namespace Sys2Proof.Machine

/-- The rule of a reserved opcode (R131). -/
def reservedCommand (s : State) : State := raise .reservedOp s

/-- Opcode 0x0 (R131). -/
def execReserved0 (s : State) : Host.Outcome State Fault Refusal := issue reservedCommand s

/-- Opcode 0x5 (R131). -/
def execReserved5 (s : State) : Host.Outcome State Fault Refusal := issue reservedCommand s

/-- Opcode 0x6 (R131). -/
def execReserved6 (s : State) : Host.Outcome State Fault Refusal := issue reservedCommand s

/-- Opcode 0x7 (R131). -/
def execReserved7 (s : State) : Host.Outcome State Fault Refusal := issue reservedCommand s

/-- Opcode 0x8 (R131). -/
def execReserved8 (s : State) : Host.Outcome State Fault Refusal := issue reservedCommand s

/-- Opcode 0x9 (R131). -/
def execReserved9 (s : State) : Host.Outcome State Fault Refusal := issue reservedCommand s

/-- Opcode 0xA (R131). -/
def execReservedA (s : State) : Host.Outcome State Fault Refusal := issue reservedCommand s

/-- Opcode 0xB (R131). -/
def execReservedB (s : State) : Host.Outcome State Fault Refusal := issue reservedCommand s

/-- Opcode 0xC (R131). -/
def execReservedC (s : State) : Host.Outcome State Fault Refusal := issue reservedCommand s

/-- Opcode 0xD (R131). -/
def execReservedD (s : State) : Host.Outcome State Fault Refusal := issue reservedCommand s

/-- Opcode 0xE (R131). -/
def execReservedE (s : State) : Host.Outcome State Fault Refusal := issue reservedCommand s

/-- Opcode 0xF (R131). -/
def execReservedF (s : State) : Host.Outcome State Fault Refusal := issue reservedCommand s

end Sys2Proof.Machine
end

