-- ==== Sys2Proof/Machine/Translator.lean ====
section
/-! DEFINITION. The translator from bytes to symbols and the fills of the pulse memory (42_translator.md R140 to
R148). -/

namespace Sys2Proof.Machine

/-- The symbol of a bit: 1 selects the one symbol, 0 the zero symbol (R144). -/
def bitSymbol (zs os : Symbol) (bit : Bool) : Symbol := if bit then os else zs

/-- The bits of a byte, bit 7 first and bit 0 last (R144). -/
def byteBits (b : Byte) : List Bool :=
  [b.getLsbD 7, b.getLsbD 6, b.getLsbD 5, b.getLsbD 4, b.getLsbD 3, b.getLsbD 2, b.getLsbD 1, b.getLsbD 0]

/-- The eight symbols of a byte (R141). -/
def byteSymbols (zs os : Symbol) (b : Byte) : List Symbol := (byteBits b).map (bitSymbol zs os)

/-- `translate(bytes, max_symbols, zs, os)`: the symbols of as many whole bytes as fit, and how many bytes those
are (R141, R142). -/
def translate (bytes : List Byte) (maxSymbols : Nat) (zs os : Symbol) : List Symbol × Nat :=
  let n := min bytes.length (maxSymbols / 8)
  ((bytes.take n).flatMap (byteSymbols zs os), n)

/-- `translate` from a resume offset of a strip's buffer, into an empty pulse memory (R146, R147). -/
def fillFrom (p : Params) (st : Strip) (offset : Nat) : List Symbol × Nat :=
  translate (st.bytes.drop offset) p.pulseMemSymbols st.zeroSym st.oneSym

/-- `start_frame()`: the first fill, at a submit (R146). -/
def startFrame (s : State) : Except Fault State :=
  match s.strip with
  | none => .error .noStrip
  | some st =>
    match fillFrom s.params st 0 with
    | ([], _) => .error .emptyFrame
    | (h :: t, n) => .ok (s.setChan ⟨true, h :: t, n, .a, h.durationA⟩)

/-- `refill()`: the pulse memory loaded again from the resume offset, which moves on (R147). -/
def refill (s : State) : Except Fault State :=
  match s.strip with
  | none => .error .noStrip
  | some st =>
    let fill := fillFrom s.params st s.chan.offset
    .ok (s.setChan { s.chan with mem := fill.1, offset := s.chan.offset + fill.2 })

end Sys2Proof.Machine
end

