-- ==== Sys2Proof/Machine/Transmission.lean ====
section
/-! DEFINITION. FLUSH, the transmission controller and the waveform generator (43_transmission.md R160 to R170). -/

namespace Sys2Proof.Machine

/-! ## FLUSH -/

/-- The controller as FLUSH leaves it at the CMD write (R161). -/
def Ctl.waiting : Ctl := ⟨.waitDone, 0, 0⟩

/-- The controller at the start of the idle gap (R163). -/
def Ctl.gapStart : Ctl := ⟨.idleGap, 0, 0⟩

/-- The rule of FLUSH at the CMD write (R161, R162): the command goes on in controller ticks. -/
def flushCommand (s : State) : State :=
  match s.strip with
  | none => raise .notInit s
  | some _ => (s.setCtl Ctl.waiting).setResult pendingWord

/-- FLUSH (R161). -/
def execFlush (s : State) : Host.Outcome State Fault Refusal := issue flushCommand s

/-- `end_flush(code, reason)`: back to READY with the outcome in RESULT (R161). -/
def endFlush (outcome : Word) (s : State) : State := (s.setCtl Ctl.ready).setResult outcome

/-! ## The waveform generator -/

/-- `end_frame()` (R170). -/
def endFrame (s : State) : State := s.setChan Chan.idle

/-- The tail of the generator's tick: the frame ends where the pulse memory is empty, else the head symbol's
segment A starts (R169). -/
def startHead (s : State) : State :=
  match s.chan.mem with
  | [] => endFrame s
  | h :: _ => s.setChan { s.chan with seg := .a, rem := h.durationA }

/-- The end of the head symbol's segment B: the symbol leaves the pulse memory, which is refilled where that
empties it (R169). -/
def finishSymbol (rest : List Symbol) (s : State) : Except Fault State :=
  match rest with
  | [] =>
    match refill (s.setChan { s.chan with mem := [] }) with
    | .ok s' => .ok (startHead s')
    | .error f => .error f
  | _ :: _ => .ok (startHead (s.setChan { s.chan with mem := rest }))

/-- The level of the head symbol's current segment (R169). -/
def segmentLevel (seg : Seg) (h : Symbol) : Level :=
  match seg with
  | .a => h.levelA
  | .b => h.levelB

/-- The generator's tick while busy, with the head symbol `h` and the symbols after it: one tick of the current
segment is used up (R169). -/
def playTick (h : Symbol) (rest : List Symbol) (s : State) : Except Fault State :=
  match s.chan.rem with
  | 0 => .error .noSegmentTicks
  | 1 =>
    match s.chan.seg with
    | .a => .ok (s.setChan { s.chan with seg := .b, rem := h.durationB })
    | .b => finishSymbol rest (s.setChan { s.chan with rem := 0 })
  | r + 2 => .ok (s.setChan { s.chan with rem := r + 1 })

/-- `channel_tick()` (R169). -/
def channelTick (s : State) : Except Fault State :=
  if s.chan.busy then
    match s.chan.mem with
    | [] => .error .noHeadSymbol
    | h :: rest => playTick h rest (s.drive (segmentLevel s.chan.seg h))
  else .ok (s.drive false)

/-! ## The controller -/

/-- `submit()` (R166): ask the channel, then start the frame and end the FLUSH, or end it refused. -/
def submit (st : Strip) (s : State) : Except Fault State :=
  match verdictFor (.submit st.bufLen) s with
  | .refuse => .ok (endFlush CmdError.submitRefused.word (noteQuestion (.submit st.bufLen) s))
  | .accept =>
    match startFrame (noteQuestion (.submit st.bufLen) s) with
    | .ok s' => .ok (endFlush okWord s')
    | .error f => .error f

/-- The controller's tick in WAIT_DONE (R163, R164). -/
def waitTick (s : State) : Except Fault State :=
  if s.chan.busy = false then .ok (s.setCtl Ctl.gapStart)
  else
    match s.strip with
    | none => .error .noStrip
    | some st =>
      if st.timeoutTicks ≤ s.ctl.waitCnt + 1 then .ok (endFlush CmdError.waitTimeout.word s)
      else .ok (s.setCtl { s.ctl with waitCnt := s.ctl.waitCnt + 1 })

/-- The controller's tick in IDLE_GAP (R163, R165). -/
def gapTick (s : State) : Except Fault State :=
  match s.strip with
  | none => .error .noStrip
  | some st =>
    if s.ctl.gapCnt + 1 = st.idleTicks then submit st (s.setCtl { s.ctl with gapCnt := s.ctl.gapCnt + 1 })
    else .ok (s.setCtl { s.ctl with gapCnt := s.ctl.gapCnt + 1 })

/-- `controller_tick()` (R163). -/
def controllerTick (s : State) : Except Fault State :=
  match s.ctl.phase with
  | .ready => .ok s
  | .waitDone => waitTick s
  | .idleGap => gapTick s

/-- `tick()`: the generator, then the controller (R160). -/
def tick (s : State) : Except Fault State :=
  match channelTick s with
  | .ok s' => controllerTick s'
  | .error f => .error f

end Sys2Proof.Machine
end

