-- ==== Sys2Proof/Machine/Dispatch.lean ====
section
/-! DEFINITION. The meaning of every command: one arm for each constructor of Instr. -/

namespace Sys2Proof.Machine

def exec (i : Instr) (s : State) : Host.Outcome State Fault Refusal :=
  match i with
  | .init _ => Sys2Proof.Machine.execInit s
  | .setPixel _ => Sys2Proof.Machine.execSetPixel s
  | .flush _ => Sys2Proof.Machine.execFlush s
  | .release _ => Sys2Proof.Machine.execRelease s
  | .reserved0 _ => Sys2Proof.Machine.execReserved0 s
  | .reserved5 _ => Sys2Proof.Machine.execReserved5 s
  | .reserved6 _ => Sys2Proof.Machine.execReserved6 s
  | .reserved7 _ => Sys2Proof.Machine.execReserved7 s
  | .reserved8 _ => Sys2Proof.Machine.execReserved8 s
  | .reserved9 _ => Sys2Proof.Machine.execReserved9 s
  | .reservedA _ => Sys2Proof.Machine.execReservedA s
  | .reservedB _ => Sys2Proof.Machine.execReservedB s
  | .reservedC _ => Sys2Proof.Machine.execReservedC s
  | .reservedD _ => Sys2Proof.Machine.execReservedD s
  | .reservedE _ => Sys2Proof.Machine.execReservedE s
  | .reservedF _ => Sys2Proof.Machine.execReservedF s

end Sys2Proof.Machine
end

