-- ==== Sys2Proof/Machine/Bus.lean ====
section
/-! DEFINITION. The register window (10_state.md R21 to R33), the host's accesses (20_memory.md R61 to R65), the
host's script and pseudo-instructions (30_encoding.md R93, R94), and what one event does. -/

namespace Sys2Proof.Machine

/-! ## The register window -/

/-- The offset of a register (10_state.md R21). -/
def regOffset : Reg → Nat
  | .cmd => 0x00
  | .cfg => 0x04
  | .div => 0x08
  | .index => 0x0C
  | .color => 0x10
  | .status => 0x14
  | .result => 0x18
  | .zeroSym => 0x1C
  | .oneSym => 0x20
  | .bufAddr => 0x24
  | .bufData => 0x28
  | .line => 0x2C

/-- The register at an offset; none at the reserved offsets (R21, R33). -/
def regAt (offset : Nat) : Option Reg :=
  match offset with
  | 0x00 => some .cmd
  | 0x04 => some .cfg
  | 0x08 => some .div
  | 0x0C => some .index
  | 0x10 => some .color
  | 0x14 => some .status
  | 0x18 => some .result
  | 0x1C => some .zeroSym
  | 0x20 => some .oneSym
  | 0x24 => some .bufAddr
  | 0x28 => some .bufData
  | 0x2C => some .line
  | _ => none

/-- What a read of BUF_DATA returns (R31): the buffer byte at BUF_ADDR, 0 beyond the buffer and without one. -/
def bufDataWord (s : State) : Word :=
  match s.strip with
  | none => 0#32
  | some st =>
    if s.regs.bufAddr.toNat < st.bufLen then (st.buf.read s.regs.bufAddr.toNat).setWidth 32 else 0#32

/-- The value of a register (R22 to R32); CMD reads 0 (R22), the symbols read 0 without a strip (R29). -/
def readReg (r : Reg) (s : State) : Word :=
  match r with
  | .cmd => 0#32
  | .cfg => s.regs.cfg
  | .div => s.regs.div
  | .index => s.regs.index
  | .color => s.regs.color
  | .status => statusWord s
  | .result => s.regs.result
  | .zeroSym => (s.strip.map (fun st => symbolWord st.zeroSym)).getD 0#32
  | .oneSym => (s.strip.map (fun st => symbolWord st.oneSym)).getD 0#32
  | .bufAddr => s.regs.bufAddr
  | .bufData => bufDataWord s
  | .line => flagBit s.line

/-- The value at an admitted offset: the register's, 0 at the reserved offsets (20_memory.md R64, 10_state.md
R33). -/
def readOffset (offset : Nat) (s : State) : Word :=
  match regAt offset with
  | some r => readReg r s
  | none => 0#32

/-- A write of a word to a register that stores one or ignores writes (20_memory.md R65). CMD is not written
here. -/
def storeReg (r : Reg) (v : Word) (s : State) : State :=
  match r with
  | .cfg => s.setCfg v
  | .div => s.setDiv v
  | .index => s.setIndex v
  | .color => s.setColor v
  | .bufAddr => s.setBufAddr v
  | .cmd | .status | .result | .zeroSym | .oneSym | .bufData | .line => s

/-- A CMD write: the command of its bytes (R65, 10_state.md R22). -/
def commandWrite (data : List Byte) (s : State) : Host.Outcome State Fault Refusal :=
  match decode data with
  | .ok (i, _) => exec i s
  | .error _ => .refused .undecodable

/-! ## Accesses -/

/-- An access is admitted: 4 bytes at a multiple of 4 up to 0x3C (20_memory.md R62). -/
def admitted (offset nbytes : Nat) : Bool :=
  decide (nbytes = 4) && decide (offset % 4 = 0) && decide (offset ≤ 0x3C)

/-- The word of a write's bytes (20_memory.md R63). -/
def dataWord : List Byte → Word
  | [b0, b1, b2, b3] => wordOfBytes b0 b1 b2 b3
  | _ => 0#32

/-- `MemWrite(offset, n, v)` (R62, R65). -/
def memWrite (offset : Nat) (data : List Byte) (s : State) : Host.Outcome State Fault Refusal :=
  if admitted offset data.length then
    match regAt offset with
    | some .cmd => commandWrite data s
    | some r => .next (storeReg r (dataWord data) s)
    | none => .next s
  else .next (recordFault .busAccess s)

/-- A read that is not admitted: BUS_ACCESS, and a free value for the host (R62, R202; notes/assumptions/7.md). -/
def faultedRead (s : State) : State :=
  recordFault .busAccess ((s.receive (Config.freeRead s.env.draws)).countDraw)

/-- `MemRead(offset, n)`: the host receives the value and nothing else changes (R62, R64). -/
def memRead (offset nbytes : Nat) (s : State) : State :=
  if admitted offset nbytes then s.receive (readOffset offset s) else faultedRead s

/-! ## The host -/

/-- Where a host access of `nbytes` bytes at a host address stands: at an offset of the window, running into the
window from below, or elsewhere (R61; notes/assumptions/8.md). -/
inductive Place where
  | inWindow (offset : Nat)
  | straddling
  | elsewhere
deriving DecidableEq, Repr

def placeOf (base address nbytes : Nat) : Place :=
  if base ≤ address then
    if address < base + 64 then .inWindow (address - base) else .elsewhere
  else if base < address + nbytes then .straddling else .elsewhere

/-- The event of a raw read. -/
def readEvent (base address nbytes : Nat) : Event :=
  match placeOf base address nbytes with
  | .inWindow offset => .read offset nbytes
  | .straddling => .straddlingRead
  | .elsewhere => .elsewhere

/-- The event of a raw write. -/
def writeEvent (base address : Nat) (data : List Byte) : Event :=
  match placeOf base address data.length with
  | .inWindow offset => .write offset data
  | .straddling => .straddlingWrite
  | .elsewhere => .elsewhere

/-- The next event of a script and the script after it. Where the host does nothing more, ticks go on
(43_transmission.md R160); `TICKS n` is n ticks (30_encoding.md R93). -/
def nextEvent (base : Nat) : List HostOp → Event × List HostOp
  | [] => (.tick, [])
  | .wr r v :: rest => (.write (regOffset r) (wordBytes v), rest)
  | .rd r :: rest => (.read (regOffset r) 4, rest)
  | .poll r mask value :: rest => (.poll r mask value, rest)
  | .ticks 0 :: rest => nextEvent base rest
  | .ticks 1 :: rest => (.tick, rest)
  | .ticks (n + 2) :: rest => (.tick, .ticks (n + 1) :: rest)
  | .busRead address nbytes :: rest => (readEvent base address nbytes, rest)
  | .busWrite address data :: rest => (writeEvent base address data, rest)
  | .reset :: rest => (.reset, rest)

/-- One read of a POLL: done where `(read & mask) = value`, else the POLL goes on after a free number of ticks
(30_encoding.md R93; notes/assumptions/6.md). -/
def pollRead (r : Reg) (mask value : Word) (s : State) : State :=
  if readReg r s &&& mask = value then s.receive (readReg r s)
  else
    ((s.receive (readReg r s)).countDraw).setScript
      (.ticks (Config.pollGap s.env.draws) :: .poll r mask value :: s.env.script)

/-- What an event does. -/
def runEvent (e : Event) (s : State) : Host.Outcome State Fault Refusal :=
  match e with
  | .tick =>
    match tick s with
    | .ok s' => .next s'
    | .error f => .fault f
  | .write offset data => memWrite offset data s
  | .read offset nbytes => .next (memRead offset nbytes s)
  | .poll r mask value => .next (pollRead r mask value s)
  | .straddlingWrite => .next (recordFault .busAccess s)
  | .straddlingRead => .next (faultedRead s)
  | .elsewhere => .next s
  | .reset => .next (resetEncoder s)

/-! ## Pseudo-instructions -/

/-- `CFGWORD <dev>, <four>, <gpio>, <count>` (R94). -/
def cfgWord (c : CfgWord) : Word :=
  BitVec.ofNat 32 c.dev ||| (BitVec.ofNat 32 c.four <<< 3) ||| (BitVec.ofNat 32 c.gpio <<< 8)
    ||| (BitVec.ofNat 32 c.count <<< 16)

/-- SETPX's colour word, `r | g<<8 | b<<16 | w<<24` (R94). -/
def colorWord (r g b w : Nat) : Word :=
  BitVec.ofNat 32 r ||| (BitVec.ofNat 32 g <<< 8) ||| (BitVec.ofNat 32 b <<< 16) ||| (BitVec.ofNat 32 w <<< 24)

/-- The expansion of a pseudo-instruction (R94). -/
def expand : Pseudo → List HostOp
  | .init cfg div =>
    [.wr .div (BitVec.ofNat 32 div), .wr .cfg (BitVec.ofNat 32 cfg), .wr .cmd 0x00000001#32]
  | .setpx index r g b w =>
    [.wr .index (BitVec.ofNat 32 index), .wr .color (colorWord r g b w), .wr .cmd 0x00000002#32]
  | .flush => [.wr .cmd 0x00000003#32]
  | .release => [.wr .cmd 0x00000004#32]
  | .waitcmd => [.poll .status 0x00000004#32 0x00000000#32]
  | .waittx => [.poll .status 0x00000002#32 0x00000000#32]

/-- A host program: its pseudo-instructions expanded in order (R94). -/
def assemble (l : List Pseudo) : List HostOp := l.flatMap expand

/-- The script with one CMD write of the word of `nbits` bits before it (R80). -/
def withCommandWrite (s : State) (nbits w : Nat) : State :=
  s.setScript (.wr .cmd (BitVec.ofNat 32 (w % 2 ^ nbits)) :: s.env.script)

/-- One step: the script's next event, on the state with the script after it. -/
def hostStep (s : State) : Host.Outcome State Fault Refusal :=
  runEvent (nextEvent s.params.base s.env.script).1 (s.setScript (nextEvent s.params.base s.env.script).2)

end Sys2Proof.Machine
end

