-- ==== Sys2Proof/Machine/Step.lean ====
section
/-! DEFINITION. One step of the machine: an access, a tick or a reset (43_transmission.md R160), whichever the
script has next. -/

namespace Sys2Proof.Machine

/-- One step of a run (R160). -/
def step : State → Host.Outcome State Fault Refusal := hostStep

/-- The state whose very next step is the CMD write of the word `w` (notes/assumptions/5.md). -/
def State.withFetchWord (s : State) (nbits w : Nat) : State := withCommandWrite s nbits w

end Sys2Proof.Machine
end

