-- ==== Sys2Proof/Safety.lean ====
section
/-! DEFINITION. The invariant of the encoder (10_state.md R38 to R45) and the words claims are stated in: runs of
ticks, the frame a buffer stands for on the line (43_transmission.md R171), the fills of a frame
(42_translator.md R149), and reading symbols back. -/

namespace Sys2Proof.Machine

/-! ## The invariant -/

/-- The range premise of 70_reset_and_hazards.md R225 for one divisor that a run uses: both tick counts fit the 32-bit
counters (60_exceptions.md R206). -/
abbrev countsFit (p : Params) (div : Nat) : Prop := idleTicksFor p div < 2 ^ 32 ∧ timeoutTicksFor p div < 2 ^ 32

/-- A strip record as a successful INIT latches it and SET_PIXEL keeps it (10_state.md R34 to R36, R45,
41_pixel_buffer.md R121). -/
structure StripOk (p : Params) (st : Strip) : Prop where
  count_pos : 1 ≤ st.count
  count_le : st.count ≤ 65535
  div_pos : 1 ≤ st.div
  div_le : st.div ≤ 255
  profile : ∃ prof, p.profile st.dev = some prof ∧ st.order = prof.order ∧
    (st.zeroSym, st.oneSym) = compileSymbols prof p.fTimer st.div
  symbols : symOk st.zeroSym st.oneSym = true
  idle : st.idleTicks = idleTicksFor p st.div
  timeout : st.timeoutTicks = timeoutTicksFor p st.div
  /-- Both counts fit the 32-bit counters: the strip's divisor meets R225's premise (60_exceptions.md R206). -/
  idle_lt : st.idleTicks < 2 ^ 32
  timeout_lt : st.timeoutTicks < 2 ^ 32
  capacity : st.bufLen ≤ p.bufCapacity
  buf_wf : st.buf.wf
  buf_bound : ∀ c ∈ st.buf, c.1 < st.bufLen

/-- The duration of a symbol's segment. -/
def segmentTicks (seg : Seg) (y : Symbol) : Nat :=
  match seg with
  | .a => y.durationA
  | .b => y.durationB

/-- The waveform generator in a frame of the strip `st` (10_state.md R38, R39, R45): symbols of the strip in a
pulse memory within its capacity, ticks left in the head's segment, the resume offset within the buffer. -/
structure Playing (p : Params) (st : Strip) (c : Chan) : Prop where
  mem_nonempty : c.mem ≠ []
  mem_symbols : ∀ y ∈ c.mem, y = st.zeroSym ∨ y = st.oneSym
  mem_capacity : c.mem.length ≤ p.pulseMemSymbols
  rem_pos : 1 ≤ c.rem
  rem_le : ∀ h ∈ c.mem.head?, c.rem ≤ segmentTicks c.seg h
  offset_le : c.offset ≤ st.bufLen

/-- The RESULT values that are ever produced (60_exceptions.md R191, R192). -/
def producedResults : List Word :=
  [0x000#32, 0x101#32, 0x201#32, 0x301#32, 0x401#32, 0x501#32, 0x601#32, 0x701#32, 0x801#32, 0x901#32,
   0x102#32, 0x103#32, 0x104#32, 0x204#32, 0x007#32]

/-- The invariant of the encoder: the state shapes of 10_state.md R23, R24, R28, R34 to R41 and R45. -/
structure State.Inv (s : State) : Prop where
  /-- Reserved bits of CFG and DIV read as 0 (R23, R24, R33). -/
  cfg_reserved : s.regs.cfg &&& ~~~cfgMask = 0#32
  div_reserved : s.regs.div &&& ~~~divMask = 0#32
  /-- RESULT holds a produced value (60_exceptions.md R191). -/
  result_produced : s.regs.result ∈ producedResults
  /-- RESULT reads PENDING exactly while a FLUSH is in progress (60_exceptions.md R199). -/
  pending_iff : s.regs.result = pendingWord ↔ s.ctl.phase ≠ .ready
  /-- The strip record is as INIT latched it (R34 to R36). -/
  strip_ok : ∀ st, s.strip = some st → StripOk s.params st
  /-- An idle generator has the shape of R38 and the line rests at 0 (R41, R45). -/
  idle_shape : s.chan.busy = false → s.chan = Chan.idle
  idle_line : s.chan.busy = false → s.line = false
  /-- A busy generator plays a frame of the strip (R37, R38, R45). -/
  busy_playing : s.chan.busy = true → ∃ st, s.strip = some st ∧ Playing s.params st s.chan
  /-- READY has zero counters (R40). -/
  ready_shape : s.ctl.phase = .ready → s.ctl = Ctl.ready
  /-- A timed wait is within its bound (R40, R45). -/
  wait_bound : s.ctl.phase = .waitDone →
    ∃ st, s.strip = some st ∧ s.ctl.waitCnt < st.timeoutTicks ∧ s.ctl.gapCnt = 0
  /-- An idle gap is within its bound, and no frame is in flight (R40, R45, 43_transmission.md R165). -/
  gap_bound : s.ctl.phase = .idleGap →
    s.chan.busy = false ∧ ∃ st, s.strip = some st ∧ s.ctl.gapCnt < st.idleTicks ∧ s.ctl.waitCnt = 0
  /-- The line's level is the last entry of its history, 0 where that is empty (R41). -/
  line_trace : s.line = s.trace.getLast?.getD false

/-! ## Runs of ticks -/

/-- `n` ticks with no host access (`TICKS n`, 30_encoding.md R93). -/
def tickN : Nat → State → Except Fault State
  | 0, s => .ok s
  | n + 1, s =>
    match tick s with
    | .ok t => tickN n t
    | .error f => .error f

/-- `n` ticks of the waveform generator alone: what it does does not depend on the controller (43_transmission.md
R169). -/
def channelTickN : Nat → State → Except Fault State
  | 0, s => .ok s
  | n + 1, s =>
    match channelTick s with
    | .ok t => channelTickN n t
    | .error f => .error f

/-! ## The frame on the line -/

/-- The symbols of a list of bytes: `expand(buf)` (42_translator.md R149). -/
def expandBytes (zs os : Symbol) (bytes : List Byte) : List Symbol := bytes.flatMap (byteSymbols zs os)

/-- A symbol's levels, one entry for each tick (40_symbol_compiler.md R104). -/
def symbolWave (y : Symbol) : List Level :=
  List.replicate y.durationA y.levelA ++ List.replicate y.durationB y.levelB

/-- The levels of a whole frame of a strip (43_transmission.md R171). -/
def frameWave (st : Strip) : List Level := (expandBytes st.zeroSym st.oneSym st.bytes).flatMap symbolWave

/-- The ticks of a symbol: T0 of the zero symbol, T1 of the one symbol (40_symbol_compiler.md R113). -/
def symbolTicks (y : Symbol) : Nat := y.durationA + y.durationB

/-- The number of 1 bits in a list of bytes (R113). -/
def onesIn (bytes : List Byte) : Nat := (bytes.flatMap byteBits).count true

/-- The symbol lists loaded into the pulse memory of `capacity` symbols during a frame of `bytes`, in load order,
at most `fuel` of them (42_translator.md R146, R147, R149). -/
def fills (capacity : Nat) (zs os : Symbol) : Nat → List Byte → List (List Symbol)
  | 0, _ => []
  | fuel + 1, bytes =>
    match translate bytes capacity zs os with
    | ([], _) => []
    | (y :: ys, n) => (y :: ys) :: fills capacity zs os fuel (bytes.drop n)

/-! ## Reading symbols back -/

/-- The byte of eight bits, the first as bit 7 (42_translator.md R149). -/
def byteOfBits (bits : List Bool) : Byte :=
  bits.foldl (fun acc bit => (acc <<< 1) ||| (if bit then 1#8 else 0#8)) 0#8

/-- The bytes of a list of symbols: each symbol back to its bit, `os` to 1, taken 8 at a time (R149). -/
def readBack (os : Symbol) : List Symbol → List Byte
  | y0 :: y1 :: y2 :: y3 :: y4 :: y5 :: y6 :: y7 :: rest =>
    byteOfBits ([y0, y1, y2, y3, y4, y5, y6, y7].map (fun y => decide (y = os))) :: readBack os rest
  | _ => []

end Sys2Proof.Machine
end

