-- ==== Sys2Proof/Certificates/Slice0/Obligations.lean ====
section
/-! DEFINITION. The statements for the provers, in the order of OBLIGATIONS.json: the encoding, the step, each
command, the register window, the symbol compiler, the translator, the tick, the invariant and the rules of the
whole machine. A rule R<n> is one of spec/. -/

open Sys2Proof Sys2Proof.Machine

/-! ## Encoding -/

/-- R80, R81, R82: decoding an encoded command gives it back, with every one of its 32 bits, and leaves the bytes
after it. -/
def Obligations.DecodeOfEncodeIsTheCommand : Prop :=
  ∀ (i : Instr) (rest : List Byte), decode (encodeBytes i ++ rest) = .ok (i, rest)

/-- R82, R91, R92: every four bytes are a command, and only one: encoding it gives the four bytes back. -/
def Obligations.EveryWordIsOneCommand : Prop :=
  ∀ (b0 b1 b2 b3 : Byte) (rest : List Byte),
    ∃ i, decode (b0 :: b1 :: b2 :: b3 :: rest) = .ok (i, rest) ∧ encodeBytes i = [b0, b1, b2, b3]

/-- R95: the words the spec writes out decode to the commands it names. -/
def Obligations.CommandWordExamplesDecode : Prop :=
  decodeWord 0x00000001#32 = some (.init 0#28) ∧ decodeWord 0x00000003#32 = some (.flush 0#28) ∧
  decodeWord 0xFFFFFFF2#32 = some (.setPixel 0xFFFFFFF#28) ∧
  decodeWord 0x00000000#32 = some (.reserved0 0#28) ∧ decodeWord 0x0000000F#32 = some (.reservedF 0#28)

/-- R81: two words with the same OP do the same in every state: bits 31:4 do not change the command. -/
def Obligations.IgnoredBitsDoNotChangeTheCommand : Prop :=
  ∀ (v w : Word) (i j : Instr), v &&& 0xF#32 = w &&& 0xF#32 → decodeWord v = some i → decodeWord w = some j →
    ∀ s : State, exec i s = exec j s

/-- R84, R94: the fields of a CFGWORD are the operands it was made from. -/
def Obligations.CfgWordFieldsAreItsOperands : Prop :=
  ∀ c : CfgWord, c.wellFormed = true →
    (cfgDev (cfgWord c)).toNat = c.dev ∧ cfgFour (cfgWord c) = decide (c.four = 1) ∧
    (cfgGpio (cfgWord c)).toNat = c.gpio ∧ cfgCount (cfgWord c) = c.count ∧ cfgWord c &&& ~~~cfgMask = 0#32

/-! ## The step -/

/-- R22, R65: a CMD write runs the command its word decodes to, on the state with the script after it; so does
the state that `withFetchWord` makes. -/
def Obligations.StepRunsTheDecodedCommand : Prop :=
  (∀ (s : State) (w : Word) (i : Instr) (rest : List HostOp),
    s.env.script = .wr .cmd w :: rest → decodeWord w = some i →
      step s = exec i { s with env := { s.env with script := rest } }) ∧
  (∀ (s : State) (w : Word) (i : Instr), decodeTableWord 32 w.toNat = some i →
    step (s.withFetchWord 32 w.toNat) = exec i s)

/-- R61, R63, R93: a raw access of four bytes at the host address of a register does what WR or RD of that register
does, the bytes of a write little-endian. -/
def Obligations.RawAccessIsTheRegisterAccess : Prop :=
  ∀ (s : State) (r : Reg) (v : Word) (rest : List HostOp),
    (s.env.script = .busWrite (s.params.base + regOffset r) (wordBytes v) :: rest →
      step s = step { s with env := { s.env with script := .wr r v :: rest } }) ∧
    (s.env.script = .busRead (s.params.base + regOffset r) 4 :: rest →
      step s = step { s with env := { s.env with script := .rd r :: rest } })

/-- R160: where the script is empty the step is a tick; R93: so is the next step of TICKS. -/
def Obligations.StepTicks : Prop :=
  (∀ s : State, s.env.script = [] →
    step s = (match tick s with | .ok t => .next t | .error f => .fault f)) ∧
  (∀ (s : State) (n : Nat) (rest : List HostOp), s.env.script = .ticks (n + 2) :: rest →
    step s = (match tick { s with env := { s.env with script := .ticks (n + 1) :: rest } } with
      | .ok t => .next t | .error f => .fault f))

/-- R93: `TICKS n` lets exactly n ticks pass with no host access. -/
def Obligations.TicksItemIsThatManyTicks : Prop :=
  ∀ (s t : State) (n : Nat) (rest : List HostOp),
    s.env.script = .ticks (n + 1) :: rest → tickN (n + 1) s = .ok t →
      Sys2Proof.core.run (n + 1) s = .next { t with env := { t.env with script := rest } }

/-- R93: one read of a POLL; where `(read & mask) = value` it is done, else it is repeated after some ticks. How many
is a free value of the model (log 6). -/
def Obligations.PollRepeatsUntilTheValue : Prop :=
  ∀ (s : State) (r : Reg) (mask value : Word) (rest : List HostOp), s.env.script = .poll r mask value :: rest →
    (readReg r s &&& mask = value → step s = .next { s with env := { s.env with
      script := rest, received := s.env.received ++ [readReg r s] } }) ∧
    (readReg r s &&& mask ≠ value → ∃ n, step s = .next { s with env := { s.env with
      script := .ticks n :: .poll r mask value :: rest
      received := s.env.received ++ [readReg r s]
      draws := s.env.draws + 1 } })

/-- R94: the three accesses of SETPX run SET_PIXEL with the index and the four channels it was written with. -/
def Obligations.SetpxRunsSetPixelOnItsOperands : Prop :=
  ∀ (s : State) (index r g b w : Nat) (rest : List HostOp),
    (Pseudo.setpx index r g b w).wellFormed = true →
    s.env.script = expand (.setpx index r g b w) ++ rest →
      ∃ u : State, Sys2Proof.core.run 3 s = exec (.setPixel 0#28) u ∧
        u = { s with
          regs := { s.regs with index := u.regs.index, color := u.regs.color }
          env := { s.env with script := rest } } ∧
        u.regs.index.toNat = index ∧ (colorR u.regs.color).toNat = r ∧ (colorG u.regs.color).toNat = g ∧
        (colorB u.regs.color).toNat = b ∧ (colorW u.regs.color).toNat = w

/-! ## INIT -/

/-- R121: INIT on an uninitialised encoder whose checks all pass latches the strip record and completes OK. -/
def Obligations.InitLatchesTheStripAndCompletes : Prop :=
  ∀ (s : State) (ignored : BitVec 28) (prof : Profile) (z o : Symbol),
    s.ctl.phase = .ready → s.strip = none →
    s.params.profile (s.regs.cfg.extractLsb' 0 3) = some prof →
    (s.regs.cfg.extractLsb' 16 16).toNat ≠ 0 → (s.regs.div.extractLsb' 0 8).toNat ≠ 0 →
    compileSymbols prof s.params.fTimer (s.regs.div.extractLsb' 0 8).toNat = (z, o) → symOk z o = true →
    (s.regs.cfg.extractLsb' 16 16).toNat * (if s.regs.cfg.getLsbD 3 then 4 else 3) ≤ s.params.bufCapacity →
    verdictFor (.configure (s.regs.cfg.extractLsb' 8 8) (s.regs.div.extractLsb' 0 8).toNat) s = .accept →
    exec (.init ignored) s = .next { s with
      regs := { s.regs with result := 0x00000000#32 }
      strip := some {
        dev := s.regs.cfg.extractLsb' 0 3
        four := s.regs.cfg.getLsbD 3
        count := (s.regs.cfg.extractLsb' 16 16).toNat
        gpio := s.regs.cfg.extractLsb' 8 8
        div := (s.regs.div.extractLsb' 0 8).toNat
        order := prof.order
        zeroSym := z
        oneSym := o
        idleTicks := ceilDiv (s.params.idleNs * s.params.fTimer)
          ((s.regs.div.extractLsb' 0 8).toNat * 10 ^ 9)
        timeoutTicks := ceilDiv (s.params.timeoutNs * s.params.fTimer)
          ((s.regs.div.extractLsb' 0 8).toNat * 10 ^ 9)
        buf := [] }
      env := { s.env with
        verdicts := s.env.verdicts.tail
        asked := s.env.asked ++
          [.configure (s.regs.cfg.extractLsb' 8 8) (s.regs.div.extractLsb' 0 8).toNat]
        draws := s.env.draws + 1 } }

/-- R35, R123: the buffer a successful INIT creates is exactly `count * channel_size` zero bytes. -/
def Obligations.InitBufferIsZero : Prop :=
  ∀ (s t : State) (ignored : BitVec 28) (st : Strip),
    exec (.init ignored) s = .next t → s.strip = none → t.strip = some st →
      st.bytes = List.replicate (st.count * (if st.four then 4 else 3)) 0#8

/-- R196, R121: the first check that fails decides RESULT, in the spec's order, and nothing else changes; a refusal
by the channel has asked it the one question. -/
def Obligations.InitReportsTheFirstFailingCheck : Prop :=
  ∀ (s : State) (ignored : BitVec 28), s.ctl.phase = .ready →
    (s.strip ≠ none → exec (.init ignored) s = .next (s.setResult 0x601#32)) ∧
    (s.strip = none → s.params.profile (cfgDev s.regs.cfg) = none →
      exec (.init ignored) s = .next (s.setResult 0x301#32)) ∧
    (∀ prof, s.strip = none → s.params.profile (cfgDev s.regs.cfg) = some prof →
      (cfgCount s.regs.cfg = 0 → exec (.init ignored) s = .next (s.setResult 0x401#32)) ∧
      (cfgCount s.regs.cfg ≠ 0 → divDivisor s.regs.div = 0 →
        exec (.init ignored) s = .next (s.setResult 0x701#32)) ∧
      (∀ z o, cfgCount s.regs.cfg ≠ 0 → divDivisor s.regs.div ≠ 0 →
        compileSymbols prof s.params.fTimer (divDivisor s.regs.div) = (z, o) →
        (symOk z o = false → exec (.init ignored) s = .next (s.setResult 0x801#32)) ∧
        (symOk z o = true →
          s.params.bufCapacity < cfgCount s.regs.cfg * (if cfgFour s.regs.cfg then 4 else 3) →
          exec (.init ignored) s = .next (s.setResult 0x102#32)) ∧
        (symOk z o = true →
          cfgCount s.regs.cfg * (if cfgFour s.regs.cfg then 4 else 3) ≤ s.params.bufCapacity →
          verdictFor (.configure (cfgGpio s.regs.cfg) (divDivisor s.regs.div)) s = .refuse →
          ∃ env : Env, env.asked = s.env.asked ++ [.configure (cfgGpio s.regs.cfg) (divDivisor s.regs.div)] ∧
            exec (.init ignored) s = .next { s with regs := { s.regs with result := 0x104#32 }, env := env })))

/-- R124: an INIT that ends with an error changes RESULT alone: no strip, no buffer, no symbols. What the model notes of
the oracle's question stands in `env`, which is not the encoder's. -/
def Obligations.InitIsAllOrNothing : Prop :=
  ∀ (s t : State) (ignored : BitVec 28), s.ctl.phase = .ready → exec (.init ignored) s = .next t →
    t.regs.result ≠ 0#32 → t = { s with regs := { s.regs with result := t.regs.result }, env := t.env }

/-! ## SET_PIXEL -/

/-- R125, R120, R67: SET_PIXEL completes, writes the pixel's bytes in channel order at `index * channel_size`, and
leaves every other byte and everything else as it was. -/
def Obligations.SetPixelWritesThePixelOnly : Prop :=
  ∀ (s : State) (ignored : BitVec 28) (st : Strip),
    s.ctl.phase = .ready → s.strip = some st → s.regs.index.toNat < st.count → s.chan.busy = false →
    ∃ buf : Memory,
      exec (.setPixel ignored) s = .next { s with
        regs := { s.regs with result := 0#32 }
        strip := some { st with buf := buf } } ∧
      (∀ k, k < channelSize st.four →
        some (buf.read (pixelAddress st s.regs.index.toNat + k)) =
          (match st.order, st.four with
            | .grb, false => [colorG s.regs.color, colorR s.regs.color, colorB s.regs.color]
            | .grb, true => [colorG s.regs.color, colorR s.regs.color, colorB s.regs.color, colorW s.regs.color]
            | .rgb, false => [colorR s.regs.color, colorG s.regs.color, colorB s.regs.color]
            | .rgb, true => [colorR s.regs.color, colorG s.regs.color, colorB s.regs.color, colorW s.regs.color])[k]?) ∧
      (∀ a, a < pixelAddress st s.regs.index.toNat ∨ pixelAddress st s.regs.index.toNat + channelSize st.four ≤ a →
        buf.read a = st.buf.read a)

/-- R125, R67: as a list of bytes, the buffer after SET_PIXEL is the bytes before the pixel, the packed pixel, and
the bytes after it. -/
def Obligations.SetPixelReplacesOneSlice : Prop :=
  ∀ (s t : State) (ignored : BitVec 28) (st : Strip),
    s.ctl.phase = .ready → s.strip = some st → s.regs.index.toNat < st.count → s.chan.busy = false →
    exec (.setPixel ignored) s = .next t →
      ∃ st', t.strip = some st' ∧
        st'.bytes = st.bytes.take (pixelAddress st s.regs.index.toNat) ++ pixelBytes st s.regs.color ++
          st.bytes.drop (pixelAddress st s.regs.index.toNat + channelSize st.four)

/-- R126, R127, R197: SET_PIXEL's errors, in the order NOT_INIT, INDEX_RANGE, BUSY; each changes RESULT alone. -/
def Obligations.SetPixelErrorsInOrder : Prop :=
  ∀ (s : State) (ignored : BitVec 28), s.ctl.phase = .ready →
    (s.strip = none → exec (.setPixel ignored) s = .next (s.setResult 0x101#32)) ∧
    (∀ st, s.strip = some st → st.count ≤ s.regs.index.toNat →
      exec (.setPixel ignored) s = .next (s.setResult 0x201#32)) ∧
    (∀ st, s.strip = some st → s.regs.index.toNat < st.count → s.chan.busy = true →
      exec (.setPixel ignored) s = .next (s.setResult 0x501#32))

/-- R128: on a three-channel strip the white field of COLOR does not reach the buffer. -/
def Obligations.WhiteIsDroppedOnThreeChannels : Prop :=
  ∀ (s t u : State) (ignored : BitVec 28) (st : Strip) (white : Word),
    s.strip = some st → st.four = false → white &&& 0x00FFFFFF#32 = s.regs.color &&& 0x00FFFFFF#32 →
    exec (.setPixel ignored) s = .next t →
    exec (.setPixel ignored) { s with regs := { s.regs with color := white } } = .next u →
      u.strip = t.strip ∧ u.regs.result = t.regs.result

/-! ## FLUSH, RELEASE, the reserved opcodes -/

/-- R161, R162, R199: at the CMD write FLUSH on an initialised encoder enters WAIT_DONE with RESULT pending, and on an
uninitialised one it ends at once with NOT_INIT and starts nothing. -/
def Obligations.FlushEntersItsSequence : Prop :=
  ∀ (s : State) (ignored : BitVec 28), s.ctl.phase = .ready →
    (s.strip ≠ none → exec (.flush ignored) s = .next { s with
      ctl := { phase := .waitDone, waitCnt := 0, gapCnt := 0 }
      regs := { s.regs with result := 0x00000007#32 } }) ∧
    (s.strip = none → exec (.flush ignored) s = .next { s with regs := { s.regs with result := 0x101#32 } })

/-- R130: RELEASE, its errors NOT_INIT then BUSY, each changing RESULT alone; with no frame in flight it removes the
strip and completes OK, after which STATUS.INIT, ZERO_SYM, ONE_SYM and BUF_DATA read 0; CFG, DIV, INDEX, COLOR and
BUF_ADDR keep their values. -/
def Obligations.ReleaseRemovesTheStrip : Prop :=
  ∀ (s : State) (ignored : BitVec 28), s.ctl.phase = .ready →
    (s.strip = none → exec (.release ignored) s = .next (s.setResult 0x101#32)) ∧
    (s.strip ≠ none → s.chan.busy = true → exec (.release ignored) s = .next (s.setResult 0x501#32)) ∧
    (s.strip ≠ none → s.chan.busy = false → ∃ t, exec (.release ignored) s = .next t ∧
      t = { s with regs := { s.regs with result := 0#32 }, strip := none } ∧
      (readReg .status t).getLsbD 0 = false ∧ readReg .zeroSym t = 0#32 ∧ readReg .oneSym t = 0#32 ∧
      readReg .bufData t = 0#32)

/-- The reserved commands with the ignored bits `g` (R82). -/
def reservedCommands (g : BitVec 28) : List Instr :=
  [.reserved0 g, .reserved5 g, .reserved6 g, .reserved7 g, .reserved8 g, .reserved9 g,
   .reservedA g, .reservedB g, .reservedC g, .reservedD g, .reservedE g, .reservedF g]

/-- R131: every reserved opcode completes with RESERVED_OP in RESULT and changes nothing else, whether or not a
strip is initialised and whether or not a frame is in flight. -/
def Obligations.ReservedOpcodesReportReservedOp : Prop :=
  ∀ (s : State) (g : BitVec 28) (i : Instr), i ∈ reservedCommands g → s.ctl.phase = .ready →
    exec i s = .next { s with regs := { s.regs with result := 0x00000901#32 } }

/-! ## What commands leave alone -/

/-- R201: any command while a FLUSH is in progress is dropped, and CMD_OVERLAP is recorded. -/
def Obligations.CommandDuringFlushIsDropped : Prop :=
  ∀ (s : State) (i : Instr), s.ctl.phase ≠ .ready →
    exec i s = .next { s with faults := { s.faults with cmdOverlap := true } }

/-- Every command answers a next state, and leaves the parameters, CFG, DIV, INDEX, COLOR, BUF_ADDR, the generator,
the line, its history, the script and the host's reads unchanged; the counters of the controller too but for FLUSH,
the record of the oracle but for INIT (R121, R125, R130, R131, R161, R201). -/
def Obligations.CommandFrame : Prop :=
  ∀ (s : State) (i : Instr), ∃ t, exec i s = .next t ∧
    t.params = s.params ∧ t.regs = { s.regs with result := t.regs.result } ∧ t.chan = s.chan ∧ t.line = s.line ∧
    t.trace = s.trace ∧ t.env.script = s.env.script ∧ t.env.received = s.env.received ∧
    ((∀ g, i ≠ .flush g) → t.ctl = s.ctl) ∧ ((∀ g, i ≠ .init g) → t.env = s.env) ∧
    (s.ctl.phase = .ready → t.faults = s.faults)

/-- Every byte of the buffer outside the pixel that SET_PIXEL stores to reads as before, and no command but
SET_PIXEL changes a kept strip (R35, R125, R129, R161, R131). -/
def Obligations.CommandMemoryFrame : Prop :=
  ∀ (s t : State) (i : Instr) (st st' : Strip),
    exec i s = .next t → s.strip = some st → t.strip = some st' →
      st' = { st with buf := st'.buf } ∧ ((∀ g, i ≠ .setPixel g) → st' = st) ∧
      (∀ a, a < pixelAddress st s.regs.index.toNat ∨ pixelAddress st s.regs.index.toNat + channelSize st.four ≤ a →
        st'.buf.read a = st.buf.read a)

/-- R192: the RESULT values each command can end with. -/
def Obligations.CommandResultsAreTheListed : Prop :=
  ∀ (s t : State) (i : Instr), s.ctl.phase = .ready → exec i s = .next t →
    (∀ g, i = .init g → t.regs.result ∈
      [0x000#32, 0x601#32, 0x301#32, 0x401#32, 0x701#32, 0x801#32, 0x102#32, 0x104#32]) ∧
    (∀ g, i = .setPixel g → t.regs.result ∈ [0x000#32, 0x101#32, 0x201#32, 0x501#32]) ∧
    (∀ g, i = .flush g → t.regs.result ∈ [0x101#32, 0x007#32]) ∧
    (∀ g, i = .release g → t.regs.result ∈ [0x000#32, 0x101#32, 0x501#32]) ∧
    (∀ g, i ∈ reservedCommands g → t.regs.result = 0x901#32)

/-! ## The register window -/

/-- R65, R23, R24, R25, R26, R30: a write to each register but CMD: the stored ones take the writable bits of the
word, the read-only ones ignore it, and nothing else changes. -/
def Obligations.RegisterWrites : Prop :=
  ∀ (s u : State) (v : Word) (rest : List HostOp), u = { s with env := { s.env with script := rest } } →
    (s.env.script = .wr .cfg v :: rest →
      step s = .next { u with regs := { s.regs with cfg := v &&& 0xFFFFFF0F#32 } }) ∧
    (s.env.script = .wr .div v :: rest →
      step s = .next { u with regs := { s.regs with div := v &&& 0x000000FF#32 } }) ∧
    (s.env.script = .wr .index v :: rest → step s = .next { u with regs := { s.regs with index := v } }) ∧
    (s.env.script = .wr .color v :: rest → step s = .next { u with regs := { s.regs with color := v } }) ∧
    (s.env.script = .wr .bufAddr v :: rest → step s = .next { u with regs := { s.regs with bufAddr := v } }) ∧
    (∀ r ∈ [Reg.status, .result, .zeroSym, .oneSym, .bufData, .line], s.env.script = .wr r v :: rest →
      step s = .next u)

/-- R64: a read returns the register's value to the host and changes nothing else; the stored registers return what
they hold, CMD returns 0 (R22), LINE the line's level (R32). -/
def Obligations.RegisterReads : Prop :=
  ∀ (s : State) (r : Reg) (rest : List HostOp), s.env.script = .rd r :: rest →
    step s = .next { s with env := { s.env with
      script := rest, received := s.env.received ++ [readReg r s] } } ∧
    readReg .cmd s = 0#32 ∧ readReg .cfg s = s.regs.cfg ∧ readReg .div s = s.regs.div ∧
    readReg .index s = s.regs.index ∧ readReg .color s = s.regs.color ∧ readReg .result s = s.regs.result ∧
    readReg .bufAddr s = s.regs.bufAddr ∧ readReg .line s = (if s.line then 1#32 else 0#32)

/-- R89, R27: the fields of the STATUS word, bit 3 and bits 31:6 reading 0; and in a state that meets the invariant
the only words a host can read. -/
def Obligations.StatusFieldsAndValues : Prop :=
  ∀ s : State,
    ((readReg .status s).getLsbD 0 = s.strip.isSome ∧ (readReg .status s).getLsbD 1 = s.chan.busy ∧
      (readReg .status s).getLsbD 2 = decide (s.ctl.phase ≠ .ready) ∧ (readReg .status s).getLsbD 3 = false ∧
      (readReg .status s).extractLsb' 4 2 =
        (match s.ctl.phase with | .ready => 0#2 | .waitDone => 1#2 | .idleGap => 2#2) ∧
      (readReg .status s).extractLsb' 6 26 = 0#26) ∧
    (s.Inv → readReg .status s ∈ [0x00#32, 0x01#32, 0x03#32, 0x15#32, 0x17#32, 0x25#32])

/-- R29, R88: ZERO_SYM and ONE_SYM read 0 without a strip, and with one the word whose fields are the symbol's. -/
def Obligations.SymbolRegisterFields : Prop :=
  (∀ s : State, s.strip = none → readReg .zeroSym s = 0#32 ∧ readReg .oneSym s = 0#32) ∧
  (∀ (s : State) (st : Strip) (r : Reg) (y : Symbol), s.strip = some st →
    (r, y) ∈ [(Reg.zeroSym, st.zeroSym), (.oneSym, st.oneSym)] → y.durationA ≤ 32767 → y.durationB ≤ 32767 →
      ((readReg r s).extractLsb' 0 15).toNat = y.durationA ∧ (readReg r s).getLsbD 15 = y.levelA ∧
      ((readReg r s).extractLsb' 16 15).toNat = y.durationB ∧ (readReg r s).getLsbD 31 = y.levelB)

/-- R31: BUF_DATA reads the buffer byte at BUF_ADDR, and 0 beyond the buffer or without one. -/
def Obligations.BufDataReadsTheByte : Prop :=
  ∀ s : State,
    (s.strip = none → readReg .bufData s = 0#32) ∧
    (∀ st, s.strip = some st → readReg .bufData s = (st.bytes[s.regs.bufAddr.toNat]?.getD 0#8).setWidth 32)

/-- R62, R202: an access in the window that is not four bytes at a multiple of four changes nothing but the model
faults; a read so faulted returns a value nothing fixes. -/
def Obligations.UnadmittedAccessIsAFault : Prop :=
  ∀ (s : State) (address : Nat) (rest : List HostOp),
    s.params.base ≤ address → address < s.params.base + 64 →
    (∀ data : List Byte, s.env.script = .busWrite address data :: rest →
      (data.length ≠ 4 ∨ (address - s.params.base) % 4 ≠ 0) →
        step s = .next { s with
          faults := { s.faults with busAccess := true }
          env := { s.env with script := rest } }) ∧
    (∀ nbytes : Nat, s.env.script = .busRead address nbytes :: rest →
      (nbytes ≠ 4 ∨ (address - s.params.base) % 4 ≠ 0) →
        ∃ v, step s = .next { s with
          faults := { s.faults with busAccess := true }
          env := { s.env with
            script := rest, received := s.env.received ++ [v], draws := s.env.draws + 1 } })

/-- R33: the reserved offsets read 0 and ignore writes. -/
def Obligations.ReservedOffsets : Prop :=
  ∀ (s : State) (offset : Nat) (v : Word) (rest : List HostOp), offset ∈ [0x30, 0x34, 0x38, 0x3C] →
    (s.env.script = .busWrite (s.params.base + offset) (wordBytes v) :: rest →
      step s = .next { s with env := { s.env with script := rest } }) ∧
    (s.env.script = .busRead (s.params.base + offset) 4 :: rest →
      step s = .next { s with env := { s.env with script := rest, received := s.env.received ++ [0#32] } })

/-- R61: an access outside the window changes nothing of the encoder, and the host receives no word of it (log 8). -/
def Obligations.NothingOutsideTheWindowIsDecoded : Prop :=
  ∀ (s : State) (address nbytes : Nat) (data : List Byte) (rest : List HostOp),
    (s.params.base + 64 ≤ address ∨ address + nbytes ≤ s.params.base ∧ address < s.params.base) →
    data.length = nbytes →
    (s.env.script = .busWrite address data :: rest ∨ s.env.script = .busRead address nbytes :: rest) →
      step s = .next { s with env := { s.env with script := rest } }

/-! ## The symbol compiler -/

/-- R105, R112: a compiled duration is the nearest whole number of ticks to the ideal one, ties upward, hence within
half a tick of it. -/
def Obligations.TicksAreNearest : Prop :=
  ∀ (w f d : Nat), 1 ≤ d →
    2 * ticks w f d * (d * 10 ^ 9) ≤ 2 * (w * f) + d * 10 ^ 9 ∧
    2 * (w * f) < (2 * ticks w f d + 1) * (d * 10 ^ 9)

/-- R109, R110, R111: the idle gap and the timeout are at least 1 tick, never shorter than their nanoseconds, and
shorter than those by no full tick more. -/
def Obligations.WaitCountsAreRoundedUp : Prop :=
  ∀ (p : Params) (d : Nat), 1 ≤ d →
    (1 ≤ idleTicksFor p d ∧ p.idleNs * p.fTimer ≤ idleTicksFor p d * (d * 10 ^ 9) ∧
      idleTicksFor p d * (d * 10 ^ 9) < p.idleNs * p.fTimer + d * 10 ^ 9) ∧
    (1 ≤ timeoutTicksFor p d ∧ p.timeoutNs * p.fTimer ≤ timeoutTicksFor p d * (d * 10 ^ 9) ∧
      timeoutTicksFor p d * (d * 10 ^ 9) < p.timeoutNs * p.fTimer + d * 10 ^ 9)

/-- R225: with this hardware's times and `F_TIMER` below 2^32 Hz both counts fit 32 bits for every divisor. -/
def Obligations.WaitCountsFit32Bits : Prop :=
  ∀ (p : Params) (d : Nat), p.timeoutNs = 1000000000 → p.idleNs = 50000 → p.fTimer ≤ 4294967295 → 1 ≤ d →
    countsFit p d

/-- R113: a frame occupies `Z * T0 + O * T1` ticks. -/
def Obligations.FrameDuration : Prop :=
  ∀ st : Strip, (frameWave st).length =
    (8 * st.bufLen - onesIn st.bytes) * symbolTicks st.zeroSym + onesIn st.bytes * symbolTicks st.oneSym

/-! ## The translator -/

/-- R141, R142, R150: translate emits eight symbols for each byte it consumes, never more than fit, and consumes as
many whole bytes as there are or as fit; the symbols are those of the bytes it consumed. -/
def Obligations.TranslateTakesWholeBytes : Prop :=
  ∀ (bytes : List Byte) (maxSymbols : Nat) (zs os : Symbol) (syms : List Symbol) (n : Nat),
    translate bytes maxSymbols zs os = (syms, n) →
      syms.length = 8 * n ∧ 8 * n ≤ maxSymbols ∧ n ≤ bytes.length ∧
      (n = bytes.length ∨ maxSymbols < 8 * n + 8) ∧ syms = expandBytes zs os (bytes.take n)

/-- R149, R150: for every pulse memory of at least 8 symbols, the fills of a frame, one after another, are the symbols
of the whole buffer, and there are `ceil_div(L, P div 8)` of them. -/
def Obligations.FillsMakeUpTheFrame : Prop :=
  ∀ (capacity : Nat) (zs os : Symbol) (bytes : List Byte), 8 ≤ capacity →
    (fills capacity zs os bytes.length bytes).flatten = expandBytes zs os bytes ∧
    (fills capacity zs os bytes.length bytes).length = ceilDiv bytes.length (capacity / 8)

/-- R149, R144: where the two symbols differ, reading a frame's symbols back gives the buffer. -/
def Obligations.SymbolsReadBackToTheBytes : Prop :=
  ∀ (zs os : Symbol) (bytes : List Byte), zs ≠ os →
    readBack os (expandBytes zs os bytes) = bytes ∧ (expandBytes zs os bytes).length = 8 * bytes.length

/-! ## The tick -/

/-- R177: a tick with the generator idle and the controller READY drives the line low and records it, nothing more.
R178: so does every tick without a strip, in a state that meets the invariant. -/
def Obligations.IdleTick : Prop :=
  ∀ s : State, (s.chan.busy = false ∧ s.ctl.phase = .ready ∨ s.Inv ∧ s.strip = none) →
    tick s = .ok { s with line := false, trace := s.trace ++ [false] }

/-- What every tick leaves alone and what it appends: one level, the line's, to the history (R171); the parameters,
the stored registers but RESULT, the strip, the model faults, the script and the host's reads stay. -/
def Obligations.TickFrame : Prop :=
  ∀ s t : State, tick s = .ok t →
    t.trace = s.trace ++ [t.line] ∧ t.params = s.params ∧ t.regs = { s.regs with result := t.regs.result } ∧
    t.strip = s.strip ∧ t.faults = s.faults ∧ t.env.script = s.env.script ∧ t.env.received = s.env.received

/-- R163, R198: in WAIT_DONE, a generator that is idle after this tick's own step ends the wait; a busy one is
counted, and R164: at the timeout the FLUSH ends with WAIT_TIMEOUT and the frame goes on. -/
def Obligations.WaitDoneTick : Prop :=
  ∀ (s u : State) (st : Strip), s.ctl.phase = .waitDone → s.strip = some st → channelTick s = .ok u →
    (u.chan.busy = false → tick s = .ok { u with ctl := { phase := .idleGap, waitCnt := 0, gapCnt := 0 } }) ∧
    (u.chan.busy = true → s.ctl.waitCnt + 1 < st.timeoutTicks →
      tick s = .ok { u with ctl := { s.ctl with waitCnt := s.ctl.waitCnt + 1 } }) ∧
    (u.chan.busy = true → st.timeoutTicks ≤ s.ctl.waitCnt + 1 →
      tick s = .ok { u with
        ctl := { phase := .ready, waitCnt := 0, gapCnt := 0 }
        regs := { u.regs with result := 0x00000103#32 } })

/-- R163, R165, R166: in IDLE_GAP the ticks are counted; at `idle_ticks` the buffer is submitted: refused, the FLUSH
ends with SUBMIT_REFUSED and nothing starts; accepted, it ends OK with the first fill in the pulse memory. -/
def Obligations.IdleGapTick : Prop :=
  ∀ (s u : State) (st : Strip), s.ctl.phase = .idleGap → s.strip = some st → channelTick s = .ok u →
    (s.ctl.gapCnt + 1 ≠ st.idleTicks →
      tick s = .ok { u with ctl := { s.ctl with gapCnt := s.ctl.gapCnt + 1 } }) ∧
    (s.ctl.gapCnt + 1 = st.idleTicks → verdictFor (.submit st.bufLen) s = .refuse →
      tick s = .ok { u with
        ctl := { phase := .ready, waitCnt := 0, gapCnt := 0 }
        regs := { u.regs with result := 0x00000204#32 }
        env := { u.env with
          verdicts := s.env.verdicts.tail
          asked := s.env.asked ++ [.submit st.bufLen]
          draws := s.env.draws + 1 } }) ∧
    (s.ctl.gapCnt + 1 = st.idleTicks → verdictFor (.submit st.bufLen) s = .accept →
      ∀ (y : Symbol) (ys : List Symbol) (n : Nat),
        translate st.bytes s.params.pulseMemSymbols st.zeroSym st.oneSym = (y :: ys, n) →
        tick s = .ok { u with
          chan := { busy := true, mem := y :: ys, offset := n, seg := .a, rem := y.durationA }
          ctl := { phase := .ready, waitCnt := 0, gapCnt := 0 }
          regs := { u.regs with result := 0x00000000#32 }
          env := { u.env with
            verdicts := s.env.verdicts.tail
            asked := s.env.asked ++ [.submit st.bufLen]
            draws := s.env.draws + 1 } })

/-- R169, R104: from the first tick of a symbol that is not the last in the pulse memory, the line is at `level_a` for
`duration_a` ticks and at `level_b` for `duration_b` ticks, and then the next symbol is at its first tick. -/
def Obligations.GeneratorPlaysASymbol : Prop :=
  ∀ (s : State) (h g : Symbol) (rest : List Symbol), s.chan.busy = true → s.chan.mem = h :: g :: rest →
    s.chan.seg = .a → s.chan.rem = h.durationA → 1 ≤ h.durationA → 1 ≤ h.durationB →
    channelTickN (h.durationA + h.durationB) s = .ok { s with
      chan := { s.chan with mem := g :: rest, seg := .a, rem := g.durationA }
      line := h.levelB
      trace := s.trace ++ (List.replicate h.durationA h.levelA ++ List.replicate h.durationB h.levelB) }

/-- R171, R170, R148, R113: a frame that starts plays exactly its waveform, symbol after symbol with no tick between
them or between the fills of the pulse memory, whatever its size, and is over on the waveform's last tick and not
before; R172: so it does where a FLUSH is issued at any tick of the frame and waits for it or times out. -/
def Obligations.FrameWaveformIsPlayedWhole : Prop :=
  ∀ (s u : State) (st : Strip), s.strip = some st → StripOk s.params st → s.ctl.phase = .ready →
    startFrame s = .ok u →
      tickN (frameWave st).length u = .ok { u with
        chan := { busy := false, mem := [], offset := 0, seg := .a, rem := 0 }
        line := false
        trace := u.trace ++ frameWave st } ∧
      (∀ k, k < (frameWave st).length → ∃ m, tickN k u = .ok m ∧ m.chan.busy = true) ∧
      (∀ (k : Nat) (ignored : BitVec 28) (m : State), k < (frameWave st).length → tickN k u = .ok m →
        ∃ f t, exec (.flush ignored) m = .next f ∧ tickN ((frameWave st).length - k) f = .ok t ∧
          t.chan = { busy := false, mem := [], offset := 0, seg := .a, rem := 0 } ∧ t.line = false ∧
          t.trace = u.trace ++ frameWave st)

/-- R176, R165: a FLUSH with no frame in flight, accepted by the channel, is in progress for `idle_ticks` ticks after its
CMD write, ends OK on tick `1 + idle_ticks` with the line low throughout, and the next tick is the frame's first
high one. -/
def Obligations.FlushTimingWithNoFrame : Prop :=
  ∀ (s : State) (st : Strip), s.Inv → s.strip = some st →
    s.ctl = { phase := .waitDone, waitCnt := 0, gapCnt := 0 } → s.chan.busy = false →
    verdictFor (.submit st.bufLen) s = .accept →
      (∀ k, k < 1 + st.idleTicks → ∃ m, tickN k s = .ok m ∧ m.ctl.phase ≠ .ready ∧ m.chan.busy = false) ∧
      ∃ t u, tickN (1 + st.idleTicks) s = .ok t ∧ t.ctl.phase = .ready ∧ t.regs.result = 0#32 ∧
        t.chan.busy = true ∧ t.trace = s.trace ++ List.replicate (1 + st.idleTicks) false ∧
        tick t = .ok u ∧ u.line = true

/-- R176, R164, R198: a FLUSH issued while a frame is in flight whose last tick is tick `r`: where `r` is past the
timeout, the FLUSH ends with WAIT_TIMEOUT on tick `timeout_ticks`, the frame still in flight; else tick `r` moves the
controller to IDLE_GAP. -/
def Obligations.FlushWaitsForTheFrameOrTimesOut : Prop :=
  ∀ (s v : State) (st : Strip) (r : Nat), s.strip = some st →
    s.ctl = { phase := .waitDone, waitCnt := 0, gapCnt := 0 } → 1 ≤ st.timeoutTicks →
    channelTickN r s = .ok v → v.chan.busy = false →
    (∀ k, k < r → ∃ m, channelTickN k s = .ok m ∧ m.chan.busy = true) →
      (st.timeoutTicks < r → ∃ m, channelTickN st.timeoutTicks s = .ok m ∧ m.chan.busy = true ∧
        tickN st.timeoutTicks s = .ok { m with
          ctl := { phase := .ready, waitCnt := 0, gapCnt := 0 }
          regs := { m.regs with result := 0x00000103#32 } }) ∧
      (1 ≤ r → r ≤ st.timeoutTicks →
        tickN r s = .ok { v with ctl := { phase := .idleGap, waitCnt := 0, gapCnt := 0 } })

/-- R176: every FLUSH ends within `timeout_ticks + idle_ticks` ticks, wherever in its sequence it is. -/
def Obligations.EveryFlushEnds : Prop :=
  ∀ (s : State) (st : Strip), s.Inv → s.strip = some st → s.ctl.phase ≠ .ready →
    ∃ n t, n ≤ st.timeoutTicks + st.idleTicks ∧ tickN n s = .ok t ∧ t.ctl.phase = .ready ∧
      t.regs.result ∈ [0x000#32, 0x103#32, 0x204#32]

/-! ## The invariant and the rules of the whole machine -/

/-- R46: the state after reset meets the invariant. -/
def Obligations.ResetMeetsTheInvariant : Prop := State.reset.Inv

/-- R45 with R23, R24, R38, R40, R191, R199: every step keeps the invariant, from every state that meets it; R225:
where the step latches a strip, its divisor, which the run then uses, meets the range premise. -/
def Obligations.StepKeepsTheInvariant : Prop :=
  ∀ s t : State, s.Inv → step s = .next t →
    (∀ st, s.strip = none → t.strip = some st → countsFit s.params st.div) → t.Inv

/-- R12, R45: no step stops in a state that meets the invariant. -/
def Obligations.NoStepStopsUnderTheInvariant : Prop :=
  ∀ s : State, s.Inv → ∃ t, step s = .next t

/-- R220, R221: the reset input puts every piece of state at its reset value and leaves the model faults. -/
def Obligations.ResetInput : Prop :=
  ∀ (s : State) (rest : List HostOp), s.env.script = .reset :: rest →
    step s = .next { s with
      regs := { cfg := 0#32, div := 2#32, index := 0#32, color := 0#32, result := 0#32, bufAddr := 0#32 }
      strip := none
      chan := { busy := false, mem := [], offset := 0, seg := .a, rem := 0 }
      ctl := { phase := .ready, waitCnt := 0, gapCnt := 0 }
      line := false
      trace := []
      env := { s.env with script := rest } }

/-- R42, R203: no step, not even reset, clears a model fault; R47: no step changes a parameter. -/
def Obligations.FaultsAreStickyAndParametersFixed : Prop :=
  ∀ s t : State, step s = .next t →
    t.params = s.params ∧ (∀ k : ModelFault, s.faults.has k = true → t.faults.has k = true)

/-- R74, R108, R228: while an encoder stays initialised, no step changes its latched configuration: everything of the
strip record but the buffer's bytes. -/
def Obligations.LatchedConfigurationIsFixed : Prop :=
  ∀ (s t : State) (st st' : Strip), step s = .next t → s.strip = some st → t.strip = some st' →
    st' = { st with buf := st'.buf }

/-- R72: while a frame is in flight, no step but a reset changes the strip or its buffer. -/
def Obligations.BufferIsFixedDuringAFrame : Prop :=
  ∀ (s t : State) (st : Strip), s.chan.busy = true → s.strip = some st →
    (nextEvent s.params.base s.env.script).1 ≠ .reset → step s = .next t → t.strip = some st

/-- R168, R173: a frame starts only on a tick in IDLE_GAP, with none in flight, and ends the FLUSH OK. -/
def Obligations.FramesStartOnlyAtASubmit : Prop :=
  ∀ s t : State, step s = .next t → s.chan.busy = false → t.chan.busy = true →
    s.ctl.phase = .idleGap ∧ t.ctl.phase = .ready ∧ t.regs.result = 0#32 ∧ t.strip = s.strip ∧ s.strip ≠ none

/-- R206, R225: in a state that meets the invariant no counter is past its 32 bits: the two of the controller, the
generator's segment counter, and the two counts they run to. -/
def Obligations.CountersFit32Bits : Prop :=
  ∀ s : State, s.Inv →
    s.ctl.waitCnt < 2 ^ 32 ∧ s.ctl.gapCnt < 2 ^ 32 ∧ s.chan.rem < 2 ^ 32 ∧
    ∀ st, s.strip = some st → st.idleTicks < 2 ^ 32 ∧ st.timeoutTicks < 2 ^ 32
end

