-- ==== Sys2Proof/Laws/State.lean ====
section
/-! SUPPORT. One lemma for each field of State after each named update, so that no proof unfolds an update. -/

namespace Sys2Proof.Machine

/-! ## setStrip -/

@[simp] theorem setStrip_params (o : Option Strip) (s : State) : (s.setStrip o).params = s.params := rfl
@[simp] theorem setStrip_regs (o : Option Strip) (s : State) : (s.setStrip o).regs = s.regs := rfl
@[simp] theorem setStrip_strip (o : Option Strip) (s : State) : (s.setStrip o).strip = o := rfl
@[simp] theorem setStrip_chan (o : Option Strip) (s : State) : (s.setStrip o).chan = s.chan := rfl
@[simp] theorem setStrip_ctl (o : Option Strip) (s : State) : (s.setStrip o).ctl = s.ctl := rfl
@[simp] theorem setStrip_line (o : Option Strip) (s : State) : (s.setStrip o).line = s.line := rfl
@[simp] theorem setStrip_trace (o : Option Strip) (s : State) : (s.setStrip o).trace = s.trace := rfl
@[simp] theorem setStrip_faults (o : Option Strip) (s : State) : (s.setStrip o).faults = s.faults := rfl
@[simp] theorem setStrip_env (o : Option Strip) (s : State) : (s.setStrip o).env = s.env := rfl

/-! ## setChan -/

@[simp] theorem setChan_params (c : Chan) (s : State) : (s.setChan c).params = s.params := rfl
@[simp] theorem setChan_regs (c : Chan) (s : State) : (s.setChan c).regs = s.regs := rfl
@[simp] theorem setChan_strip (c : Chan) (s : State) : (s.setChan c).strip = s.strip := rfl
@[simp] theorem setChan_chan (c : Chan) (s : State) : (s.setChan c).chan = c := rfl
@[simp] theorem setChan_ctl (c : Chan) (s : State) : (s.setChan c).ctl = s.ctl := rfl
@[simp] theorem setChan_line (c : Chan) (s : State) : (s.setChan c).line = s.line := rfl
@[simp] theorem setChan_trace (c : Chan) (s : State) : (s.setChan c).trace = s.trace := rfl
@[simp] theorem setChan_faults (c : Chan) (s : State) : (s.setChan c).faults = s.faults := rfl
@[simp] theorem setChan_env (c : Chan) (s : State) : (s.setChan c).env = s.env := rfl

/-! ## setCtl -/

@[simp] theorem setCtl_params (c : Ctl) (s : State) : (s.setCtl c).params = s.params := rfl
@[simp] theorem setCtl_regs (c : Ctl) (s : State) : (s.setCtl c).regs = s.regs := rfl
@[simp] theorem setCtl_strip (c : Ctl) (s : State) : (s.setCtl c).strip = s.strip := rfl
@[simp] theorem setCtl_chan (c : Ctl) (s : State) : (s.setCtl c).chan = s.chan := rfl
@[simp] theorem setCtl_ctl (c : Ctl) (s : State) : (s.setCtl c).ctl = c := rfl
@[simp] theorem setCtl_line (c : Ctl) (s : State) : (s.setCtl c).line = s.line := rfl
@[simp] theorem setCtl_trace (c : Ctl) (s : State) : (s.setCtl c).trace = s.trace := rfl
@[simp] theorem setCtl_faults (c : Ctl) (s : State) : (s.setCtl c).faults = s.faults := rfl
@[simp] theorem setCtl_env (c : Ctl) (s : State) : (s.setCtl c).env = s.env := rfl

/-! ## setScript -/

@[simp] theorem setScript_params (l : List HostOp) (s : State) : (s.setScript l).params = s.params := rfl
@[simp] theorem setScript_regs (l : List HostOp) (s : State) : (s.setScript l).regs = s.regs := rfl
@[simp] theorem setScript_strip (l : List HostOp) (s : State) : (s.setScript l).strip = s.strip := rfl
@[simp] theorem setScript_chan (l : List HostOp) (s : State) : (s.setScript l).chan = s.chan := rfl
@[simp] theorem setScript_ctl (l : List HostOp) (s : State) : (s.setScript l).ctl = s.ctl := rfl
@[simp] theorem setScript_line (l : List HostOp) (s : State) : (s.setScript l).line = s.line := rfl
@[simp] theorem setScript_trace (l : List HostOp) (s : State) : (s.setScript l).trace = s.trace := rfl
@[simp] theorem setScript_faults (l : List HostOp) (s : State) : (s.setScript l).faults = s.faults := rfl
@[simp] theorem setScript_env (l : List HostOp) (s : State) : (s.setScript l).env = { s.env with script := l } := rfl

/-! ## setResult -/

@[simp] theorem setResult_params (v : Word) (s : State) : (s.setResult v).params = s.params := rfl
@[simp] theorem setResult_regs (v : Word) (s : State) : (s.setResult v).regs = { s.regs with result := v } := rfl
@[simp] theorem setResult_strip (v : Word) (s : State) : (s.setResult v).strip = s.strip := rfl
@[simp] theorem setResult_chan (v : Word) (s : State) : (s.setResult v).chan = s.chan := rfl
@[simp] theorem setResult_ctl (v : Word) (s : State) : (s.setResult v).ctl = s.ctl := rfl
@[simp] theorem setResult_line (v : Word) (s : State) : (s.setResult v).line = s.line := rfl
@[simp] theorem setResult_trace (v : Word) (s : State) : (s.setResult v).trace = s.trace := rfl
@[simp] theorem setResult_faults (v : Word) (s : State) : (s.setResult v).faults = s.faults := rfl
@[simp] theorem setResult_env (v : Word) (s : State) : (s.setResult v).env = s.env := rfl

/-! ## setCfg -/

@[simp] theorem setCfg_params (v : Word) (s : State) : (s.setCfg v).params = s.params := rfl
@[simp] theorem setCfg_regs (v : Word) (s : State) : (s.setCfg v).regs = { s.regs with cfg := v &&& cfgMask } := rfl
@[simp] theorem setCfg_strip (v : Word) (s : State) : (s.setCfg v).strip = s.strip := rfl
@[simp] theorem setCfg_chan (v : Word) (s : State) : (s.setCfg v).chan = s.chan := rfl
@[simp] theorem setCfg_ctl (v : Word) (s : State) : (s.setCfg v).ctl = s.ctl := rfl
@[simp] theorem setCfg_line (v : Word) (s : State) : (s.setCfg v).line = s.line := rfl
@[simp] theorem setCfg_trace (v : Word) (s : State) : (s.setCfg v).trace = s.trace := rfl
@[simp] theorem setCfg_faults (v : Word) (s : State) : (s.setCfg v).faults = s.faults := rfl
@[simp] theorem setCfg_env (v : Word) (s : State) : (s.setCfg v).env = s.env := rfl

/-! ## setDiv -/

@[simp] theorem setDiv_params (v : Word) (s : State) : (s.setDiv v).params = s.params := rfl
@[simp] theorem setDiv_regs (v : Word) (s : State) : (s.setDiv v).regs = { s.regs with div := v &&& divMask } := rfl
@[simp] theorem setDiv_strip (v : Word) (s : State) : (s.setDiv v).strip = s.strip := rfl
@[simp] theorem setDiv_chan (v : Word) (s : State) : (s.setDiv v).chan = s.chan := rfl
@[simp] theorem setDiv_ctl (v : Word) (s : State) : (s.setDiv v).ctl = s.ctl := rfl
@[simp] theorem setDiv_line (v : Word) (s : State) : (s.setDiv v).line = s.line := rfl
@[simp] theorem setDiv_trace (v : Word) (s : State) : (s.setDiv v).trace = s.trace := rfl
@[simp] theorem setDiv_faults (v : Word) (s : State) : (s.setDiv v).faults = s.faults := rfl
@[simp] theorem setDiv_env (v : Word) (s : State) : (s.setDiv v).env = s.env := rfl

/-! ## setIndex -/

@[simp] theorem setIndex_params (v : Word) (s : State) : (s.setIndex v).params = s.params := rfl
@[simp] theorem setIndex_regs (v : Word) (s : State) : (s.setIndex v).regs = { s.regs with index := v } := rfl
@[simp] theorem setIndex_strip (v : Word) (s : State) : (s.setIndex v).strip = s.strip := rfl
@[simp] theorem setIndex_chan (v : Word) (s : State) : (s.setIndex v).chan = s.chan := rfl
@[simp] theorem setIndex_ctl (v : Word) (s : State) : (s.setIndex v).ctl = s.ctl := rfl
@[simp] theorem setIndex_line (v : Word) (s : State) : (s.setIndex v).line = s.line := rfl
@[simp] theorem setIndex_trace (v : Word) (s : State) : (s.setIndex v).trace = s.trace := rfl
@[simp] theorem setIndex_faults (v : Word) (s : State) : (s.setIndex v).faults = s.faults := rfl
@[simp] theorem setIndex_env (v : Word) (s : State) : (s.setIndex v).env = s.env := rfl

/-! ## setColor -/

@[simp] theorem setColor_params (v : Word) (s : State) : (s.setColor v).params = s.params := rfl
@[simp] theorem setColor_regs (v : Word) (s : State) : (s.setColor v).regs = { s.regs with color := v } := rfl
@[simp] theorem setColor_strip (v : Word) (s : State) : (s.setColor v).strip = s.strip := rfl
@[simp] theorem setColor_chan (v : Word) (s : State) : (s.setColor v).chan = s.chan := rfl
@[simp] theorem setColor_ctl (v : Word) (s : State) : (s.setColor v).ctl = s.ctl := rfl
@[simp] theorem setColor_line (v : Word) (s : State) : (s.setColor v).line = s.line := rfl
@[simp] theorem setColor_trace (v : Word) (s : State) : (s.setColor v).trace = s.trace := rfl
@[simp] theorem setColor_faults (v : Word) (s : State) : (s.setColor v).faults = s.faults := rfl
@[simp] theorem setColor_env (v : Word) (s : State) : (s.setColor v).env = s.env := rfl

/-! ## setBufAddr -/

@[simp] theorem setBufAddr_params (v : Word) (s : State) : (s.setBufAddr v).params = s.params := rfl
@[simp] theorem setBufAddr_regs (v : Word) (s : State) : (s.setBufAddr v).regs = { s.regs with bufAddr := v } := rfl
@[simp] theorem setBufAddr_strip (v : Word) (s : State) : (s.setBufAddr v).strip = s.strip := rfl
@[simp] theorem setBufAddr_chan (v : Word) (s : State) : (s.setBufAddr v).chan = s.chan := rfl
@[simp] theorem setBufAddr_ctl (v : Word) (s : State) : (s.setBufAddr v).ctl = s.ctl := rfl
@[simp] theorem setBufAddr_line (v : Word) (s : State) : (s.setBufAddr v).line = s.line := rfl
@[simp] theorem setBufAddr_trace (v : Word) (s : State) : (s.setBufAddr v).trace = s.trace := rfl
@[simp] theorem setBufAddr_faults (v : Word) (s : State) : (s.setBufAddr v).faults = s.faults := rfl
@[simp] theorem setBufAddr_env (v : Word) (s : State) : (s.setBufAddr v).env = s.env := rfl

/-! ## drive -/

@[simp] theorem drive_params (l : Level) (s : State) : (s.drive l).params = s.params := rfl
@[simp] theorem drive_regs (l : Level) (s : State) : (s.drive l).regs = s.regs := rfl
@[simp] theorem drive_strip (l : Level) (s : State) : (s.drive l).strip = s.strip := rfl
@[simp] theorem drive_chan (l : Level) (s : State) : (s.drive l).chan = s.chan := rfl
@[simp] theorem drive_ctl (l : Level) (s : State) : (s.drive l).ctl = s.ctl := rfl
@[simp] theorem drive_line (l : Level) (s : State) : (s.drive l).line = l := rfl
@[simp] theorem drive_trace (l : Level) (s : State) : (s.drive l).trace = s.trace ++ [l] := rfl
@[simp] theorem drive_faults (l : Level) (s : State) : (s.drive l).faults = s.faults := rfl
@[simp] theorem drive_env (l : Level) (s : State) : (s.drive l).env = s.env := rfl

/-! ## receive -/

@[simp] theorem receive_params (v : Word) (s : State) : (s.receive v).params = s.params := rfl
@[simp] theorem receive_regs (v : Word) (s : State) : (s.receive v).regs = s.regs := rfl
@[simp] theorem receive_strip (v : Word) (s : State) : (s.receive v).strip = s.strip := rfl
@[simp] theorem receive_chan (v : Word) (s : State) : (s.receive v).chan = s.chan := rfl
@[simp] theorem receive_ctl (v : Word) (s : State) : (s.receive v).ctl = s.ctl := rfl
@[simp] theorem receive_line (v : Word) (s : State) : (s.receive v).line = s.line := rfl
@[simp] theorem receive_trace (v : Word) (s : State) : (s.receive v).trace = s.trace := rfl
@[simp] theorem receive_faults (v : Word) (s : State) : (s.receive v).faults = s.faults := rfl
@[simp] theorem receive_env (v : Word) (s : State) : (s.receive v).env = { s.env with received := s.env.received ++ [v] } := rfl

/-! ## countDraw -/

@[simp] theorem countDraw_params (s : State) : (s.countDraw).params = s.params := rfl
@[simp] theorem countDraw_regs (s : State) : (s.countDraw).regs = s.regs := rfl
@[simp] theorem countDraw_strip (s : State) : (s.countDraw).strip = s.strip := rfl
@[simp] theorem countDraw_chan (s : State) : (s.countDraw).chan = s.chan := rfl
@[simp] theorem countDraw_ctl (s : State) : (s.countDraw).ctl = s.ctl := rfl
@[simp] theorem countDraw_line (s : State) : (s.countDraw).line = s.line := rfl
@[simp] theorem countDraw_trace (s : State) : (s.countDraw).trace = s.trace := rfl
@[simp] theorem countDraw_faults (s : State) : (s.countDraw).faults = s.faults := rfl
@[simp] theorem countDraw_env (s : State) : (s.countDraw).env = { s.env with draws := s.env.draws + 1 } := rfl

/-! ## noteQuestion -/

@[simp] theorem noteQuestion_params (q : ChanQuestion) (s : State) : (noteQuestion q s).params = s.params := rfl
@[simp] theorem noteQuestion_regs (q : ChanQuestion) (s : State) : (noteQuestion q s).regs = s.regs := rfl
@[simp] theorem noteQuestion_strip (q : ChanQuestion) (s : State) : (noteQuestion q s).strip = s.strip := rfl
@[simp] theorem noteQuestion_chan (q : ChanQuestion) (s : State) : (noteQuestion q s).chan = s.chan := rfl
@[simp] theorem noteQuestion_ctl (q : ChanQuestion) (s : State) : (noteQuestion q s).ctl = s.ctl := rfl
@[simp] theorem noteQuestion_line (q : ChanQuestion) (s : State) : (noteQuestion q s).line = s.line := rfl
@[simp] theorem noteQuestion_trace (q : ChanQuestion) (s : State) : (noteQuestion q s).trace = s.trace := rfl
@[simp] theorem noteQuestion_faults (q : ChanQuestion) (s : State) : (noteQuestion q s).faults = s.faults := rfl
@[simp] theorem noteQuestion_env (q : ChanQuestion) (s : State) : (noteQuestion q s).env = { s.env with verdicts := s.env.verdicts.tail, asked := s.env.asked ++ [q], draws := s.env.draws + 1 } := rfl

/-! ## recordFault -/

@[simp] theorem recordFault_params (k : ModelFault) (s : State) : (recordFault k s).params = s.params := rfl
@[simp] theorem recordFault_regs (k : ModelFault) (s : State) : (recordFault k s).regs = s.regs := rfl
@[simp] theorem recordFault_strip (k : ModelFault) (s : State) : (recordFault k s).strip = s.strip := rfl
@[simp] theorem recordFault_chan (k : ModelFault) (s : State) : (recordFault k s).chan = s.chan := rfl
@[simp] theorem recordFault_ctl (k : ModelFault) (s : State) : (recordFault k s).ctl = s.ctl := rfl
@[simp] theorem recordFault_line (k : ModelFault) (s : State) : (recordFault k s).line = s.line := rfl
@[simp] theorem recordFault_trace (k : ModelFault) (s : State) : (recordFault k s).trace = s.trace := rfl
@[simp] theorem recordFault_faults (k : ModelFault) (s : State) : (recordFault k s).faults = s.faults.add k := rfl
@[simp] theorem recordFault_env (k : ModelFault) (s : State) : (recordFault k s).env = s.env := rfl

/-! ## raise -/

@[simp] theorem raise_params (e : CmdError) (s : State) : (raise e s).params = s.params := rfl
@[simp] theorem raise_regs (e : CmdError) (s : State) : (raise e s).regs = { s.regs with result := e.word } := rfl
@[simp] theorem raise_strip (e : CmdError) (s : State) : (raise e s).strip = s.strip := rfl
@[simp] theorem raise_chan (e : CmdError) (s : State) : (raise e s).chan = s.chan := rfl
@[simp] theorem raise_ctl (e : CmdError) (s : State) : (raise e s).ctl = s.ctl := rfl
@[simp] theorem raise_line (e : CmdError) (s : State) : (raise e s).line = s.line := rfl
@[simp] theorem raise_trace (e : CmdError) (s : State) : (raise e s).trace = s.trace := rfl
@[simp] theorem raise_faults (e : CmdError) (s : State) : (raise e s).faults = s.faults := rfl
@[simp] theorem raise_env (e : CmdError) (s : State) : (raise e s).env = s.env := rfl

/-! ## complete -/

@[simp] theorem complete_params (s : State) : (complete s).params = s.params := rfl
@[simp] theorem complete_regs (s : State) : (complete s).regs = { s.regs with result := okWord } := rfl
@[simp] theorem complete_strip (s : State) : (complete s).strip = s.strip := rfl
@[simp] theorem complete_chan (s : State) : (complete s).chan = s.chan := rfl
@[simp] theorem complete_ctl (s : State) : (complete s).ctl = s.ctl := rfl
@[simp] theorem complete_line (s : State) : (complete s).line = s.line := rfl
@[simp] theorem complete_trace (s : State) : (complete s).trace = s.trace := rfl
@[simp] theorem complete_faults (s : State) : (complete s).faults = s.faults := rfl
@[simp] theorem complete_env (s : State) : (complete s).env = s.env := rfl

/-! ## resetEncoder -/

@[simp] theorem resetEncoder_params (s : State) : (resetEncoder s).params = s.params := rfl
@[simp] theorem resetEncoder_regs (s : State) : (resetEncoder s).regs = Regs.reset := rfl
@[simp] theorem resetEncoder_strip (s : State) : (resetEncoder s).strip = none := rfl
@[simp] theorem resetEncoder_chan (s : State) : (resetEncoder s).chan = Chan.idle := rfl
@[simp] theorem resetEncoder_ctl (s : State) : (resetEncoder s).ctl = Ctl.ready := rfl
@[simp] theorem resetEncoder_line (s : State) : (resetEncoder s).line = false := rfl
@[simp] theorem resetEncoder_trace (s : State) : (resetEncoder s).trace = [] := rfl
@[simp] theorem resetEncoder_faults (s : State) : (resetEncoder s).faults = s.faults := rfl
@[simp] theorem resetEncoder_env (s : State) : (resetEncoder s).env = s.env := rfl

/-! ## endFlush -/

@[simp] theorem endFlush_params (w : Word) (s : State) : (endFlush w s).params = s.params := rfl
@[simp] theorem endFlush_regs (w : Word) (s : State) : (endFlush w s).regs = { s.regs with result := w } := rfl
@[simp] theorem endFlush_strip (w : Word) (s : State) : (endFlush w s).strip = s.strip := rfl
@[simp] theorem endFlush_chan (w : Word) (s : State) : (endFlush w s).chan = s.chan := rfl
@[simp] theorem endFlush_ctl (w : Word) (s : State) : (endFlush w s).ctl = Ctl.ready := rfl
@[simp] theorem endFlush_line (w : Word) (s : State) : (endFlush w s).line = s.line := rfl
@[simp] theorem endFlush_trace (w : Word) (s : State) : (endFlush w s).trace = s.trace := rfl
@[simp] theorem endFlush_faults (w : Word) (s : State) : (endFlush w s).faults = s.faults := rfl
@[simp] theorem endFlush_env (w : Word) (s : State) : (endFlush w s).env = s.env := rfl

/-! ## endFrame -/

@[simp] theorem endFrame_params (s : State) : (endFrame s).params = s.params := rfl
@[simp] theorem endFrame_regs (s : State) : (endFrame s).regs = s.regs := rfl
@[simp] theorem endFrame_strip (s : State) : (endFrame s).strip = s.strip := rfl
@[simp] theorem endFrame_chan (s : State) : (endFrame s).chan = Chan.idle := rfl
@[simp] theorem endFrame_ctl (s : State) : (endFrame s).ctl = s.ctl := rfl
@[simp] theorem endFrame_line (s : State) : (endFrame s).line = s.line := rfl
@[simp] theorem endFrame_trace (s : State) : (endFrame s).trace = s.trace := rfl
@[simp] theorem endFrame_faults (s : State) : (endFrame s).faults = s.faults := rfl
@[simp] theorem endFrame_env (s : State) : (endFrame s).env = s.env := rfl

end Sys2Proof.Machine
end

