-- ==== Sys2Proof/Laws/Memory.lean ====
section
/-! SUPPORT. The laws of the pixel buffer: a read after a write, every other byte left alone, the canonical form
and the bound on addresses kept by every operation, the buffer as a list of bytes. -/

namespace Sys2Proof.Machine

@[simp] theorem Memory.read_nil (a : Nat) : Memory.read [] a = Memory.unlisted := rfl

theorem Memory.read_cons (b : Nat) (v : Byte) (t : Memory) (a : Nat) :
    Memory.read ((b, v) :: t) a = if b = a then v else Memory.read t a := rfl

theorem Memory.read_erase (m : Memory) (a x : Nat) :
    (m.erase a).read x = if x = a then Memory.unlisted else m.read x := by
  induction m with
  | nil => simp [Memory.erase]
  | cons c t ih =>
    obtain ⟨b, v⟩ := c
    by_cases hb : b = a
    · have : Memory.erase ((b, v) :: t) a = Memory.erase t a := by simp [Memory.erase, hb]
      rw [this, ih]
      by_cases hx : x = a
      · simp [hx]
      · have : b ≠ x := fun h => hx (h.symm.trans hb)
        simp [hx, Memory.read_cons, this]
    · have : Memory.erase ((b, v) :: t) a = (b, v) :: Memory.erase t a := by simp [Memory.erase, hb]
      rw [this, Memory.read_cons, ih, Memory.read_cons]
      by_cases hx : b = x
      · simp [← hx, hb]
      · simp [hx]

theorem Memory.read_insert (m : Memory) (a x : Nat) (v : Byte) :
    (m.insert a v).read x = if x = a then v else m.read x := by
  induction m with
  | nil => simp [Memory.insert, Memory.read_cons, eq_comm]
  | cons c t ih =>
    obtain ⟨b, w⟩ := c
    unfold Memory.insert
    by_cases h1 : a < b
    · simp [h1, Memory.read_cons, eq_comm (a := a)]
    · by_cases h2 : a = b
      · subst h2
        by_cases hx : x = a
        · simp [hx, Memory.read_cons]
        · simp [Memory.read_cons, hx, Ne.symm hx]
      · simp only [h1, h2, if_false, Memory.read_cons, ih]
        by_cases hb : b = x
        · simp [← hb, Ne.symm h2]
        · simp [hb]

/-- A read after a write: the byte written, and every other byte as before. -/
theorem Memory.read_write (m : Memory) (a x : Nat) (v : Byte) :
    (m.write a v).read x = if x = a then v else m.read x := by
  unfold Memory.write
  split
  · rename_i h
    rw [Memory.read_erase, h]
  · rw [Memory.read_insert]

/-- A read after several bytes are written: those bytes at their addresses, and every other byte as before. -/
theorem Memory.read_writeBytes (m : Memory) (a x : Nat) (vs : List Byte) :
    (m.writeBytes a vs).read x = if a ≤ x then vs[x - a]?.getD (m.read x) else m.read x := by
  induction vs generalizing m a with
  | nil => simp [Memory.writeBytes]
  | cons v vs ih =>
    rw [Memory.writeBytes, ih, Memory.read_write]
    by_cases h1 : x = a
    · subst h1; simp
    · by_cases h2 : a ≤ x
      · have h3 : a + 1 ≤ x := by omega
        have h4 : x - a = (x - (a + 1)) + 1 := by omega
        simp [h1, h2, h3, h4]
      · have h3 : ¬ a + 1 ≤ x := by omega
        simp [h1, h2, h3]

theorem Memory.wf_nil : Memory.wf [] := by simp [Memory.wf]

theorem Memory.wf_erase {m : Memory} (h : m.wf) (a : Nat) : (m.erase a).wf :=
  ⟨h.1.filter _, fun c hc => h.2 c (List.mem_filter.1 hc).1⟩

theorem Memory.mem_insert {m : Memory} {a : Nat} {v : Byte} {c : Host.Cell} (h : c ∈ m.insert a v) :
    c = (a, v) ∨ c ∈ m := by
  induction m with
  | nil => simpa [Memory.insert] using h
  | cons d t ih =>
    obtain ⟨b, w⟩ := d
    unfold Memory.insert at h
    split at h
    · simpa using h
    · split at h
      · rcases List.mem_cons.1 h with h | h
        · exact .inl h
        · exact .inr (List.mem_cons_of_mem _ h)
      · rcases List.mem_cons.1 h with h | h
        · exact .inr (h ▸ List.mem_cons_self)
        · exact (ih h).imp id (List.mem_cons_of_mem _)

theorem Memory.wf_insert {m : Memory} (h : m.wf) (a : Nat) {v : Byte} (hv : v ≠ Memory.unlisted) :
    (m.insert a v).wf := by
  refine ⟨?_, fun c hc => ?_⟩
  · obtain ⟨h, -⟩ := h
    induction m with
    | nil => simp [Memory.insert]
    | cons d t ih =>
      obtain ⟨b, w⟩ := d
      obtain ⟨hd, ht⟩ := List.pairwise_cons.1 h
      unfold Memory.insert
      split
      · rename_i hab
        refine List.pairwise_cons.2 ⟨fun c hc => ?_, h⟩
        rcases List.mem_cons.1 hc with rfl | hc
        · exact hab
        · exact hab.trans (hd c hc)
      · split
        · rename_i hab
          subst hab
          exact List.pairwise_cons.2 ⟨hd, ht⟩
        · refine List.pairwise_cons.2 ⟨fun c hc => ?_, ih ht⟩
          rcases Memory.mem_insert hc with rfl | hc
          · show b < a
            omega
          · exact hd c hc
  · rcases Memory.mem_insert hc with rfl | hc
    · exact hv
    · exact h.2 c hc

/-- A write keeps the canonical form. -/
theorem Memory.wf_write {m : Memory} (h : m.wf) (a : Nat) (v : Byte) : (m.write a v).wf := by
  unfold Memory.write
  split
  · exact Memory.wf_erase h a
  · exact Memory.wf_insert h a ‹_›

/-- Writing several bytes keeps the canonical form. -/
theorem Memory.wf_writeBytes {m : Memory} (h : m.wf) (a : Nat) (vs : List Byte) : (m.writeBytes a vs).wf := by
  induction vs generalizing m a with
  | nil => exact h
  | cons v vs ih => exact ih (Memory.wf_write h a v) (a + 1)

/-- A write below a bound keeps every cell below it. -/
theorem Memory.bound_write {m : Memory} {n : Nat} (h : ∀ c ∈ m, c.1 < n) {a : Nat} (ha : a < n) (v : Byte) :
    ∀ c ∈ m.write a v, c.1 < n := by
  intro c hc
  unfold Memory.write at hc
  split at hc
  · exact h c (List.mem_filter.1 hc).1
  · rcases Memory.mem_insert hc with rfl | hc
    · exact ha
    · exact h c hc

/-- Writing several bytes below a bound keeps every cell below it. -/
theorem Memory.bound_writeBytes {m : Memory} {n : Nat} (h : ∀ c ∈ m, c.1 < n) {a : Nat} {vs : List Byte}
    (ha : a + vs.length ≤ n) : ∀ c ∈ m.writeBytes a vs, c.1 < n := by
  induction vs generalizing m a with
  | nil => exact h
  | cons v vs ih =>
    rw [List.length_cons] at ha
    exact ih (Memory.bound_write h (by omega) v) (by omega)

/-- An address below every cell reads as unlisted. -/
theorem Memory.read_below {m : Memory} {a : Nat} (h : ∀ c ∈ m, a < c.1) : m.read a = Memory.unlisted := by
  induction m with
  | nil => rfl
  | cons c t ih =>
    obtain ⟨b, v⟩ := c
    have hb : a < b := h (b, v) List.mem_cons_self
    rw [Memory.read_cons, if_neg (by omega)]
    exact ih fun d hd => h d (List.mem_cons_of_mem _ hd)

theorem Memory.wf_tail {c : Host.Cell} {t : Memory} (h : Memory.wf (c :: t)) : t.wf :=
  ⟨(List.pairwise_cons.1 h.1).2, fun d hd => h.2 d (List.mem_cons_of_mem _ hd)⟩

/-- In a canonical memory an address at or below the first cell's reads as unlisted past that cell. -/
theorem Memory.read_tail {b : Nat} {v : Byte} {t : Memory} (h : Memory.wf ((b, v) :: t)) {a : Nat} (ha : a ≤ b) :
    t.read a = Memory.unlisted :=
  Memory.read_below fun c hc => Nat.lt_of_le_of_lt ha ((List.pairwise_cons.1 h.1).1 c hc)

/-- Canonical memories that read alike at every address are equal. -/
theorem Memory.ext_of_wf {m m' : Memory} (h : m.wf) (h' : m'.wf) (hr : ∀ a, m.read a = m'.read a) : m = m' := by
  induction m generalizing m' with
  | nil =>
    cases m' with
    | nil => rfl
    | cons c t =>
      obtain ⟨b, v⟩ := c
      have e := hr b
      rw [Memory.read_cons, if_pos rfl] at e
      exact absurd e.symm (h'.2 (b, v) List.mem_cons_self)
  | cons c t ih =>
    obtain ⟨b, v⟩ := c
    have e := hr b
    rw [Memory.read_cons, if_pos rfl] at e
    have hv : v ≠ Memory.unlisted := h.2 (b, v) List.mem_cons_self
    cases m' with
    | nil => exact absurd e hv
    | cons c' t' =>
      obtain ⟨b', v'⟩ := c'
      have e' := hr b'
      rw [Memory.read_cons, Memory.read_cons, if_pos rfl] at e'
      rw [Memory.read_cons] at e
      have hv' : v' ≠ Memory.unlisted := h'.2 (b', v') List.mem_cons_self
      have hb : b = b' := by
        by_contra hne
        rw [if_neg (Ne.symm hne)] at e
        rw [if_neg hne] at e'
        rcases Nat.lt_or_gt_of_ne hne with hlt | hgt
        · exact hv (e.trans (Memory.read_tail h' hlt.le))
        · exact hv' (e'.symm.trans (Memory.read_tail h (Nat.le_of_lt hgt)))
      subst hb
      rw [if_pos rfl] at e
      have ht : t = t' := ih (Memory.wf_tail h) (Memory.wf_tail h') fun a => by
        by_cases ha : b = a
        · rw [← ha, Memory.read_tail h le_rfl, Memory.read_tail h' le_rfl]
        · simpa [Memory.read_cons, ha] using hr a
      rw [e, ht]

@[simp] theorem Strip.length_bytes (st : Strip) : st.bytes.length = st.bufLen := by simp [Strip.bytes]

/-- The buffer's list of bytes, byte by byte. -/
theorem Strip.getElem?_bytes (st : Strip) (a : Nat) :
    st.bytes[a]? = if a < st.bufLen then some (st.buf.read a) else none := by
  unfold Strip.bytes
  rw [List.getElem?_map]
  by_cases h : a < st.bufLen
  · simp [h]
  · simp [h]

end Sys2Proof.Machine
end

