-- ==== Sys2Proof/Laws/Translator.lean ====
section
/-! SUPPORT. What the translator and the fills give (42_translator.md R141, R146, R147, R150). -/

namespace Sys2Proof.Machine

@[simp] theorem length_byteBits (b : Byte) : (byteBits b).length = 8 := rfl

@[simp] theorem length_byteSymbols (zs os : Symbol) (b : Byte) : (byteSymbols zs os b).length = 8 := by
  simp [byteSymbols]

@[simp] theorem length_expandBytes (zs os : Symbol) (bytes : List Byte) :
    (expandBytes zs os bytes).length = 8 * bytes.length := by
  induction bytes with
  | nil => rfl
  | cons b t ih =>
    have : expandBytes zs os (b :: t) = byteSymbols zs os b ++ expandBytes zs os t := by simp [expandBytes]
    rw [this, List.length_append, ih, length_byteSymbols, List.length_cons]
    omega

theorem expandBytes_append (zs os : Symbol) (l l' : List Byte) :
    expandBytes zs os (l ++ l') = expandBytes zs os l ++ expandBytes zs os l' := by simp [expandBytes]

/-- Every symbol of a list of bytes is one of the two (R144). -/
theorem mem_expandBytes {zs os y : Symbol} {bytes : List Byte} (h : y ∈ expandBytes zs os bytes) :
    y = zs ∨ y = os := by
  obtain ⟨b, -, h⟩ := List.mem_flatMap.1 h
  obtain ⟨bit, -, rfl⟩ := List.mem_map.1 h
  cases bit
  · exact .inl rfl
  · exact .inr rfl

/-- The whole result of `translate` (R141): the symbols of its first n bytes, n the bytes that fit. -/
theorem translate_eq (bytes : List Byte) (maxSymbols : Nat) (zs os : Symbol) :
    translate bytes maxSymbols zs os =
      (expandBytes zs os (bytes.take (min bytes.length (maxSymbols / 8))), min bytes.length (maxSymbols / 8)) := rfl

/-- The symbols a fill loads (R146, R147). -/
theorem fillFrom_fst (p : Params) (st : Strip) (offset : Nat) :
    (fillFrom p st offset).1 =
      expandBytes st.zeroSym st.oneSym ((st.bytes.drop offset).take (fillFrom p st offset).2) := rfl

/-- The bytes a fill consumes (R142). -/
theorem fillFrom_snd (p : Params) (st : Strip) (offset : Nat) :
    (fillFrom p st offset).2 = min (st.bufLen - offset) (p.pulseMemSymbols / 8) := by
  simp [fillFrom, translate_eq]

/-- A fill loads eight symbols for each byte it consumes (R150). -/
theorem length_fillFrom (p : Params) (st : Strip) (offset : Nat) :
    (fillFrom p st offset).1.length = 8 * (fillFrom p st offset).2 := by
  rw [fillFrom_fst, length_expandBytes, List.length_take, List.length_drop, Strip.length_bytes]
  rw [fillFrom_snd]
  omega

/-- A fill fits the pulse memory (10_state.md R39). -/
theorem fillFrom_le (p : Params) (st : Strip) (offset : Nat) :
    (fillFrom p st offset).1.length ≤ p.pulseMemSymbols := by
  rw [length_fillFrom, fillFrom_snd]
  omega

/-- A fill is empty exactly when the buffer is used up (R145, R147). -/
theorem fillFrom_nil (p : Params) (st : Strip) (offset : Nat) :
    (fillFrom p st offset).1 = [] ↔ st.bufLen ≤ offset := by
  have h := length_fillFrom p st offset
  have h' := fillFrom_snd p st offset
  have hp := p.pulseMem_ge
  rw [← List.length_eq_zero_iff]
  omega

end Sys2Proof.Machine
end

