-- ==== Sys2Proof/Laws/Commands.lean ====
section
/-! SUPPORT. Everything a command can do: its rule behind the one `issue`, and one case analysis for each rule
(41_pixel_buffer.md R121, R125, R130, R131, 43_transmission.md R161). -/

namespace Sys2Proof.Machine

/-- The rule of a command, run in READY. -/
def commandRule : Instr → State → State
  | .init _ => initCommand
  | .setPixel _ => setPixelCommand
  | .flush _ => flushCommand
  | .release _ => releaseCommand
  | .reserved0 _ | .reserved5 _ | .reserved6 _ | .reserved7 _ => reservedCommand
  | .reserved8 _ | .reserved9 _ | .reservedA _ | .reservedB _ => reservedCommand
  | .reservedC _ | .reservedD _ | .reservedE _ | .reservedF _ => reservedCommand

/-- Every command is its rule, issued. -/
theorem exec_eq_issue (i : Instr) (s : State) : exec i s = issue (commandRule i) s := by cases i <;> rfl

/-- In READY a command runs its rule. -/
theorem exec_ready {s : State} (h : s.ctl.phase = .ready) (i : Instr) : exec i s = .next (commandRule i s) := by
  rw [exec_eq_issue, issue, if_pos h]

/-- In any other phase it is dropped with CMD_OVERLAP (60_exceptions.md R201). -/
theorem exec_overlap {s : State} (h : s.ctl.phase ≠ .ready) (i : Instr) :
    exec i s = .next (recordFault .cmdOverlap s) := by
  rw [exec_eq_issue, issue, if_neg h]

theorem initBind_accept {st : Strip} {s : State} (h : verdictFor (.configure st.gpio st.div) s = .accept) :
    initBind st s = complete ((noteQuestion (.configure st.gpio st.div) s).setStrip (some st)) := by
  simp only [initBind, h]

theorem initBind_refuse {st : Strip} {s : State} (h : verdictFor (.configure st.gpio st.div) s = .refuse) :
    initBind st s = raise .configRefused (noteQuestion (.configure st.gpio st.div) s) := by
  simp only [initBind, h]

/-- What the checks of INIT before the channel's question mean for the record it would latch (R121). -/
structure InitChecked (p : Params) (prof : Profile) (cfg div : Word) : Prop where
  profile : p.profile (cfgDev cfg) = some prof
  count : cfgCount cfg ≠ 0
  divisor : divDivisor div ≠ 0
  symbols : symOk (initStrip p prof cfg div).zeroSym (initStrip p prof cfg div).oneSym = true
  capacity : (initStrip p prof cfg div).bufLen ≤ p.bufCapacity

/-- INIT either reports an error that is not the channel's and changes RESULT alone, or, on an uninitialised encoder
whose checks pass, asks the channel (R121, 60_exceptions.md R196). -/
theorem initCommand_cases (s : State) :
    (∃ e ∈ [CmdError.alreadyInit, .unsupportedType, .zeroCount, .badDivisor, .symbolRange, .alloc],
      initCommand s = raise e s) ∨
    (∃ prof, s.strip = none ∧ InitChecked s.params prof s.regs.cfg s.regs.div ∧
      initCommand s = initBind (initStrip s.params prof s.regs.cfg s.regs.div) s) := by
  unfold initCommand
  split
  · exact .inl ⟨.alreadyInit, by simp, rfl⟩
  · rename_i hs
    split
    · exact .inl ⟨.unsupportedType, by simp, rfl⟩
    · rename_i prof hp
      unfold initWithProfile
      split
      · exact .inl ⟨.zeroCount, by simp, rfl⟩
      · rename_i hc
        split
        · exact .inl ⟨.badDivisor, by simp, rfl⟩
        · rename_i hd
          split
          · exact .inl ⟨.symbolRange, by simp, rfl⟩
          · rename_i hy
            split
            · exact .inl ⟨.alloc, by simp, rfl⟩
            · rename_i hn
              exact .inr ⟨prof, hs, ⟨hp, hc, hd, by simpa [initStrip] using hy,
                by simpa [initStrip, Strip.bufLen] using hn⟩, rfl⟩

/-- SET_PIXEL either reports an error and changes RESULT alone, or writes one pixel of a strip with no frame in flight
(R125). -/
theorem setPixelCommand_cases (s : State) :
    (∃ e ∈ [CmdError.notInit, .indexRange, .busy], setPixelCommand s = raise e s) ∨
    (∃ st, s.strip = some st ∧ indexValue s.regs.index < st.count ∧ s.chan.busy = false ∧
      setPixelCommand s =
        complete (s.setStrip (some (st.withPixel (indexValue s.regs.index) s.regs.color)))) := by
  unfold setPixelCommand
  split
  · exact .inl ⟨.notInit, by simp, rfl⟩
  · rename_i st hs
    split
    · exact .inl ⟨.indexRange, by simp, rfl⟩
    · rename_i hi
      split
      · exact .inl ⟨.busy, by simp, rfl⟩
      · rename_i hb
        exact .inr ⟨st, hs, by omega, by simpa using hb, rfl⟩

/-- RELEASE either reports an error and changes RESULT alone, or removes a strip with no frame in flight (R130). -/
theorem releaseCommand_cases (s : State) :
    (∃ e ∈ [CmdError.notInit, .busy], releaseCommand s = raise e s) ∨
    (s.strip ≠ none ∧ s.chan.busy = false ∧ releaseCommand s = complete (s.setStrip none)) := by
  unfold releaseCommand
  split
  · exact .inl ⟨.notInit, by simp, rfl⟩
  · rename_i st hs
    split
    · exact .inl ⟨.busy, by simp, rfl⟩
    · rename_i hb
      exact .inr ⟨by simp [hs], by simpa using hb, rfl⟩

/-- FLUSH either reports NOT_INIT or enters WAIT_DONE (R161, R162). -/
theorem flushCommand_cases (s : State) :
    (s.strip = none ∧ flushCommand s = raise .notInit s) ∨
    (s.strip ≠ none ∧ flushCommand s = (s.setCtl Ctl.waiting).setResult pendingWord) := by
  unfold flushCommand
  split
  · rename_i hs
    exact .inl ⟨hs, rfl⟩
  · rename_i st hs
    exact .inr ⟨by simp [hs], rfl⟩

/-- The reserved commands among all: those that are none of the four. -/
theorem commandRule_reserved {i : Instr} (h1 : ∀ g, i ≠ .init g) (h2 : ∀ g, i ≠ .setPixel g)
    (h3 : ∀ g, i ≠ .flush g) (h4 : ∀ g, i ≠ .release g) : commandRule i = reservedCommand := by
  cases i <;> first | rfl | (exfalso; first | exact h1 _ rfl | exact h2 _ rfl | exact h3 _ rfl | exact h4 _ rfl)

@[simp] theorem length_pack (order : ChannelOrder) (four : Bool) (r g b w : Byte) :
    (pack order four r g b w).length = channelSize four := by
  cases order <;> cases four <;> rfl

@[simp] theorem length_pixelBytes (st : Strip) (color : Word) :
    (pixelBytes st color).length = channelSize st.four := length_pack ..

/-- A pixel in range lies within the buffer (20_memory.md R67). -/
theorem pixelAddress_le {st : Strip} {index : Nat} (h : index < st.count) :
    pixelAddress st index + channelSize st.four ≤ st.bufLen := by
  unfold pixelAddress Strip.bufLen
  calc index * channelSize st.four + channelSize st.four = (index + 1) * channelSize st.four := by ring
    _ ≤ st.count * channelSize st.four := Nat.mul_le_mul_right _ h

end Sys2Proof.Machine
end

