-- ==== Sys2Proof/Laws/Tick.lean ====
section
/-! SUPPORT. Everything a tick of the waveform generator, a tick of the controller and a whole tick can change, said
once for each (43_transmission.md R160, R163, R169). -/

namespace Sys2Proof.Machine

/-- The head symbol started: the generator alone changes. -/
theorem startHead_eq (s : State) : startHead s = s.setChan (startHead s).chan := by
  unfold startHead
  split <;> rfl

/-- A refill changes the generator alone. -/
theorem refill_eq {s t : State} (h : refill s = .ok t) : t = s.setChan t.chan := by
  unfold refill at h
  split at h
  · cases h
  · cases h; rfl

theorem finishSymbol_eq {rest : List Symbol} {s t : State} (h : finishSymbol rest s = .ok t) :
    t = s.setChan t.chan := by
  unfold finishSymbol at h
  split at h
  · split at h
    · rename_i s' hs
      cases h
      rw [startHead_eq s', refill_eq hs]
      rfl
    · cases h
  · cases h
    rw [startHead_eq]
    rfl

theorem playTick_eq {y : Symbol} {rest : List Symbol} {s t : State} (h : playTick y rest s = .ok t) :
    t = s.setChan t.chan := by
  unfold playTick at h
  split at h
  · cases h
  · split at h
    · cases h; rfl
    · have e := finishSymbol_eq h
      rw [e]
      rfl
  · cases h; rfl

/-- The generator's tick changes the generator and the line, and appends the line's level to its history. -/
theorem channelTick_eq {s t : State} (h : channelTick s = .ok t) : t = (s.drive t.line).setChan t.chan := by
  unfold channelTick at h
  split at h
  · split at h
    · cases h
    · have e := playTick_eq h
      rw [e]
      rfl
  · cases h; rfl

theorem startFrame_eq {s t : State} (h : startFrame s = .ok t) : t = s.setChan t.chan := by
  unfold startFrame at h
  split at h
  · cases h
  · split at h
    · cases h
    · cases h; rfl

/-- A started frame: its strip, and its first fill in the pulse memory (R146). -/
theorem startFrame_ok {s t : State} (h : startFrame s = .ok t) :
    ∃ st y ys, s.strip = some st ∧ (fillFrom s.params st 0).1 = y :: ys ∧
      t = s.setChan ⟨true, y :: ys, (fillFrom s.params st 0).2, .a, y.durationA⟩ := by
  unfold startFrame at h
  split at h
  · cases h
  · rename_i st hst
    split at h
    · cases h
    · rename_i y ys n hf
      cases h
      exact ⟨st, y, ys, hst, by rw [hf], by rw [hf]⟩

/-- What a submit leaves alone: the strip, the line, the model faults, all registers but RESULT. -/
theorem submit_eq {st : Strip} {s t : State} (h : submit st s = .ok t) :
    t = (((noteQuestion (.submit st.bufLen) s).setChan t.chan).setCtl Ctl.ready).setResult t.regs.result := by
  unfold submit at h
  split at h
  · cases h; rfl
  · split at h
    · rename_i s' hs
      cases h
      rw [startFrame_eq hs]
      rfl
    · cases h

/-- Everything the controller's tick can do (R163): nothing in READY; in WAIT_DONE the gap starts, the wait is counted
or times out; in IDLE_GAP the gap is counted or the buffer submitted. -/
theorem controllerTick_cases {s t : State} (h : controllerTick s = .ok t) :
    (s.ctl.phase = .ready ∧ t = s) ∨
    (s.ctl.phase = .waitDone ∧ s.chan.busy = false ∧ t = s.setCtl Ctl.gapStart) ∨
    (∃ st, s.ctl.phase = .waitDone ∧ s.chan.busy = true ∧ s.strip = some st ∧ st.timeoutTicks ≤ s.ctl.waitCnt + 1 ∧
      t = endFlush CmdError.waitTimeout.word s) ∨
    (∃ st, s.ctl.phase = .waitDone ∧ s.chan.busy = true ∧ s.strip = some st ∧ s.ctl.waitCnt + 1 < st.timeoutTicks ∧
      t = s.setCtl { s.ctl with waitCnt := s.ctl.waitCnt + 1 }) ∨
    (∃ st, s.ctl.phase = .idleGap ∧ s.strip = some st ∧ s.ctl.gapCnt + 1 ≠ st.idleTicks ∧
      t = s.setCtl { s.ctl with gapCnt := s.ctl.gapCnt + 1 }) ∨
    (∃ st, s.ctl.phase = .idleGap ∧ s.strip = some st ∧ s.ctl.gapCnt + 1 = st.idleTicks ∧
      submit st (s.setCtl { s.ctl with gapCnt := s.ctl.gapCnt + 1 }) = .ok t) := by
  unfold controllerTick at h
  split at h
  · rename_i hp
    cases h
    exact .inl ⟨hp, rfl⟩
  · rename_i hp
    unfold waitTick at h
    split at h
    · rename_i hb
      cases h
      exact .inr (.inl ⟨hp, hb, rfl⟩)
    · rename_i hb
      split at h
      · cases h
      · rename_i st hst
        split at h
        · rename_i hle
          cases h
          exact .inr (.inr (.inl ⟨st, hp, by simpa using hb, hst, hle, rfl⟩))
        · rename_i hle
          cases h
          exact .inr (.inr (.inr (.inl ⟨st, hp, by simpa using hb, hst, by omega, rfl⟩)))
  · rename_i hp
    unfold gapTick at h
    split at h
    · cases h
    · rename_i st hst
      split at h
      · rename_i he
        exact .inr (.inr (.inr (.inr (.inr ⟨st, hp, hst, he, h⟩))))
      · rename_i he
        cases h
        exact .inr (.inr (.inr (.inr (.inl ⟨st, hp, hst, he, rfl⟩))))

/-- What the controller's tick leaves alone: the parameters, the strip, the line and its history, the model faults, all
registers but RESULT, the script and the host's reads. -/
theorem controllerTick_eq {s t : State} (h : controllerTick s = .ok t) :
    t = { s with
      regs := { s.regs with result := t.regs.result }
      chan := t.chan
      ctl := t.ctl
      env := { s.env with verdicts := t.env.verdicts, asked := t.env.asked, draws := t.env.draws } } := by
  rcases controllerTick_cases h with ⟨-, rfl⟩ | ⟨-, -, rfl⟩ | ⟨st, -, -, -, -, rfl⟩ | ⟨st, -, -, -, -, rfl⟩ |
    ⟨st, -, -, -, rfl⟩ | ⟨st, -, -, -, hs⟩
  · rfl
  · rfl
  · rfl
  · rfl
  · rfl
  · rw [submit_eq hs]; rfl

/-- A tick is a tick of the generator and then one of the controller. -/
theorem tick_ok {s t : State} (h : tick s = .ok t) : ∃ u, channelTick s = .ok u ∧ controllerTick u = .ok t := by
  unfold tick at h
  split at h
  · rename_i u hu
    exact ⟨u, hu, h⟩
  · cases h

/-- A tick whose generator's step is known is the controller's tick after it. -/
theorem tick_of_channelTick {s u : State} (h : channelTick s = .ok u) : tick s = controllerTick u := by
  simp only [tick, h]

/-- What a tick leaves alone, and the one level it appends to the history (R171). -/
theorem tick_eq {s t : State} (h : tick s = .ok t) :
    t = { s with
      regs := { s.regs with result := t.regs.result }
      chan := t.chan
      ctl := t.ctl
      line := t.line
      trace := s.trace ++ [t.line]
      env := { s.env with verdicts := t.env.verdicts, asked := t.env.asked, draws := t.env.draws } } := by
  obtain ⟨u, hu, ht⟩ := tick_ok h
  rw [controllerTick_eq ht, channelTick_eq hu]
  rfl

end Sys2Proof.Machine
end

