-- ==== Sys2Proof/Laws/Bus.lean ====
section
/-! SUPPORT. The bus and the script: bytes and words, the register at an offset, what one event does
(20_memory.md R62 to R65, 30_encoding.md R82, R93). -/

namespace Sys2Proof.Machine

/-- The bytes of a word make the word again (20_memory.md R63). -/
theorem wordOfBytes_wordBytes (v : Word) :
    wordOfBytes (v.extractLsb' 0 8) (v.extractLsb' 8 8) (v.extractLsb' 16 8) (v.extractLsb' 24 8) = v := by
  unfold wordOfBytes
  apply BitVec.eq_of_getLsbD_eq
  intro i hi
  simp only [BitVec.getLsbD_append, BitVec.getLsbD_extractLsb']
  split
  · simp [*]
  · split
    · simp only [decide_true, Bool.true_and, *]; congr 1; omega
    · split
      · simp only [decide_true, Bool.true_and, *]; congr 1; omega
      · have : i - 8 - 8 - 8 < 8 := by omega
        simp only [decide_true, Bool.true_and, *]; congr 1; omega

@[simp] theorem dataWord_wordBytes (v : Word) : dataWord (wordBytes v) = v := wordOfBytes_wordBytes v

/-- Decoding the bytes of a word is decoding the word. -/
theorem decode_wordBytes (v : Word) (rest : List Byte) :
    decode (wordBytes v ++ rest) =
      match decodeWord v with
      | some i => .ok (i, rest)
      | none => .error .noMatchingRow := by
  show (match decodeWord (wordOfBytes (v.extractLsb' 0 8) (v.extractLsb' 8 8) (v.extractLsb' 16 8)
    (v.extractLsb' 24 8)) with
      | some i => (Except.ok (i, rest) : Except DecodeError (Instr × List Byte))
      | none => Except.error DecodeError.noMatchingRow) = _
  rw [wordOfBytes_wordBytes]

/-- The register at a register's offset is that register (10_state.md R21). -/
@[simp] theorem regAt_regOffset (r : Reg) : regAt (regOffset r) = some r := by cases r <;> rfl

/-- Every register's offset is admitted for four bytes (20_memory.md R62). -/
@[simp] theorem admitted_regOffset (r : Reg) : admitted (regOffset r) 4 = true := by cases r <;> rfl

/-- An access at a register's offset (10_state.md R21, 20_memory.md R61). -/
theorem placeOf_regOffset (base : Nat) (r : Reg) (n : Nat) :
    placeOf base (base + regOffset r) n = .inWindow (regOffset r) := by
  have h : regOffset r < 64 := by cases r <;> decide
  unfold placeOf
  rw [if_pos (by omega), if_pos (by omega)]
  congr 1
  omega

/-- A write of a word at the offset of a register other than CMD (20_memory.md R65). -/
theorem memWrite_reg {r : Reg} (h : r ≠ .cmd) (v : Word) (s : State) :
    memWrite (regOffset r) (wordBytes v) s = .next (storeReg r v s) := by
  have hl : (wordBytes v).length = 4 := rfl
  unfold memWrite
  rw [hl, admitted_regOffset, if_pos rfl, regAt_regOffset]
  cases r <;> first | exact absurd rfl h | (simp only [dataWord_wordBytes])

/-- A write of a word at the offset of CMD (20_memory.md R65). -/
theorem memWrite_cmd (v : Word) (s : State) :
    memWrite 0x00 (wordBytes v) s =
      match decodeWord v with
      | some i => exec i s
      | none => .refused .undecodable := by
  have h : memWrite 0x00 (wordBytes v) s = commandWrite (wordBytes v ++ []) s := rfl
  rw [h, commandWrite, decode_wordBytes]
  cases decodeWord v <;> rfl

/-- What a store to a register leaves alone (R65). -/
theorem storeReg_eq (r : Reg) (v : Word) (s : State) :
    storeReg r v s = { s with regs := { (storeReg r v s).regs with result := s.regs.result } } := by
  cases r <;> rfl

/-- A read's value does not depend on the script or on what the host has read. -/
@[simp] theorem readReg_setScript (r : Reg) (l : List HostOp) (s : State) :
    readReg r (s.setScript l) = readReg r s := by cases r <;> rfl

@[simp] theorem readOffset_setScript (offset : Nat) (l : List HostOp) (s : State) :
    readOffset offset (s.setScript l) = readOffset offset s := by
  unfold readOffset
  split <;> simp

/-- A script set to what it is. -/
theorem setScript_self {s : State} {l : List HostOp} (h : s.env.script = l) : s.setScript l = s := by
  subst h; rfl

/-- A step on a script whose head is a WR (30_encoding.md R93). -/
theorem step_wr {s : State} {r : Reg} {v : Word} {rest : List HostOp} (h : s.env.script = .wr r v :: rest) :
    step s = memWrite (regOffset r) (wordBytes v) (s.setScript rest) := by
  simp only [step, hostStep, h, nextEvent, runEvent]

/-- A step on a script whose head is a RD. -/
theorem step_rd {s : State} {r : Reg} {rest : List HostOp} (h : s.env.script = .rd r :: rest) :
    step s = .next ((s.setScript rest).receive (readReg r s)) := by
  simp only [step, hostStep, h, nextEvent, runEvent, memRead, admitted_regOffset, if_true, readOffset, regAt_regOffset,
    readReg_setScript]

/-- One step is one event. -/
theorem step_eq_runEvent (s : State) :
    step s = runEvent (nextEvent s.params.base s.env.script).1
      (s.setScript (nextEvent s.params.base s.env.script).2) := rfl

/-- Everything a step that goes on can have done: a tick, a command, a store to a register, something the host alone
sees, a model fault, a reset. -/
theorem runEvent_cases {e : Event} {s t : State} (h : runEvent e s = .next t) :
    (e = .tick ∧ tick s = .ok t) ∨
    (∃ i, exec i s = .next t) ∨
    (∃ r v, t = storeReg r v s) ∨
    (∃ env, t = { s with env := env }) ∨
    (∃ env, t = recordFault .busAccess { s with env := env }) ∨
    (e = .reset ∧ t = resetEncoder s) := by
  cases e with
  | tick =>
    simp only [runEvent] at h
    split at h
    · cases h; exact .inl ⟨rfl, by assumption⟩
    · cases h
  | write offset data =>
    simp only [runEvent, memWrite] at h
    split at h
    · split at h
      · unfold commandWrite at h
        split at h
        · exact .inr (.inl ⟨_, h⟩)
        · cases h
      · cases h
        exact .inr (.inr (.inl ⟨_, _, rfl⟩))
      · cases h
        exact .inr (.inr (.inr (.inl ⟨s.env, rfl⟩)))
    · cases h
      exact .inr (.inr (.inr (.inr (.inl ⟨s.env, rfl⟩))))
  | read offset nbytes =>
    simp only [runEvent, memRead] at h
    split at h
    · cases h
      exact .inr (.inr (.inr (.inl ⟨_, rfl⟩)))
    · cases h
      exact .inr (.inr (.inr (.inr (.inl ⟨_, rfl⟩))))
  | poll r mask value =>
    simp only [runEvent, pollRead] at h
    split at h
    · cases h
      exact .inr (.inr (.inr (.inl ⟨_, rfl⟩)))
    · cases h
      exact .inr (.inr (.inr (.inl ⟨_, rfl⟩)))
  | straddlingWrite =>
    cases h
    exact .inr (.inr (.inr (.inr (.inl ⟨s.env, rfl⟩))))
  | straddlingRead =>
    cases h
    exact .inr (.inr (.inr (.inr (.inl ⟨_, rfl⟩))))
  | elsewhere =>
    cases h
    exact .inr (.inr (.inr (.inl ⟨s.env, rfl⟩)))
  | reset =>
    cases h
    exact .inr (.inr (.inr (.inr (.inr ⟨rfl, rfl⟩))))

end Sys2Proof.Machine
end

