-- ==== Sys2Proof/Laws/Invariant.lean ====
section
/-! SUPPORT. What a strip record that INIT latched satisfies, and the generator's tick under the invariant
(10_state.md R34 to R39, R45). -/

namespace Sys2Proof.Machine

/-- The durations of accepted symbols are positive (40_symbol_compiler.md R107). -/
theorem symOk_pos {z o : Symbol} (h : symOk z o = true) : 1 ≤ z.durationA ∧ 1 ≤ z.durationB ∧ 1 ≤ o.durationA ∧ 1 ≤ o.durationB := by
  simp [symOk, durationOk] at h; omega
theorem ceilDiv_pos {a b : Nat} (ha : 1 ≤ a) (hb : 1 ≤ b) : 1 ≤ ceilDiv a b := by
  unfold ceilDiv; exact Nat.div_pos (by omega) (by omega)
/-- The idle gap is at least one tick (R110). -/
theorem StripOk.idle_pos {p st} (h : StripOk p st) : 1 ≤ st.idleTicks := by
  rw [h.idle]
  exact ceilDiv_pos (Nat.mul_pos p.idle_pos p.fTimer_pos) (Nat.mul_pos h.div_pos (by decide))
/-- The timeout is at least one tick (R111). -/
theorem StripOk.timeout_pos {p st} (h : StripOk p st) : 1 ≤ st.timeoutTicks := by
  rw [h.timeout]
  exact ceilDiv_pos (Nat.mul_pos p.timeout_pos p.fTimer_pos) (Nat.mul_pos h.div_pos (by decide))
/-- A strip has a byte to send (10_state.md R36). -/
theorem StripOk.bufLen_pos {p st} (h : StripOk p st) : 1 ≤ st.bufLen := by
  unfold Strip.bufLen channelSize
  have := h.count_pos
  split <;> omega
/-- Both symbols are high, then low (R103). -/
theorem StripOk.levels {p st} (h : StripOk p st) : st.zeroSym.levelA = true ∧ st.oneSym.levelA = true ∧ st.zeroSym.levelB = false ∧ st.oneSym.levelB = false := by
  obtain ⟨prof, -, -, e⟩ := h.profile
  rw [Prod.ext_iff] at e
  obtain ⟨e1, e2⟩ := e
  simp only at e1 e2
  rw [e1, e2]; simp [compileSymbols, compileSymbol]
/-- A fill is made of the strip's two symbols (42_translator.md R144). -/
theorem mem_fillFrom {p : Params} {st : Strip} {o : Nat} {y : Symbol} (h : y ∈ (fillFrom p st o).1) : y = st.zeroSym ∨ y = st.oneSym := by
  rw [fillFrom_fst] at h; exact mem_expandBytes h

/-- The generator's tick under the invariant: it does not stop, an idle generator has its idle shape and a low line
after it, and a busy one still plays a frame of the strip (10_state.md R38, R45). -/
theorem channelTick_inv {s : State} (hi : s.Inv) : ∃ t, channelTick s = .ok t ∧ 
   (t.chan.busy = false → t.chan = Chan.idle ∧ t.line = false) ∧
   (t.chan.busy = true → s.chan.busy = true ∧ ∃ st, s.strip = some st ∧ Playing s.params st t.chan) := by
  unfold channelTick
  by_cases hb : s.chan.busy = true
  · rw [if_pos hb]
    obtain ⟨st, hst, hp⟩ := hi.busy_playing hb
    have hok := hi.strip_ok st hst
    obtain ⟨d1, d2, d3, d4⟩ := symOk_pos hok.symbols
    obtain ⟨l1, l2, l3, l4⟩ := hok.levels
    cases hm : s.chan.mem with
    | nil => exact absurd hm hp.mem_nonempty
    | cons h rest =>
      have hh : h = st.zeroSym ∨ h = st.oneSym := hp.mem_symbols h (by simp [hm])
      have hrest : ∀ y ∈ rest, y = st.zeroSym ∨ y = st.oneSym := fun y hy => hp.mem_symbols y (by simp [hm, hy])
      have hA : 1 ≤ h.durationA := by rcases hh with rfl | rfl <;> assumption
      have hB : 1 ≤ h.durationB := by rcases hh with rfl | rfl <;> assumption
      have hlB : h.levelB = false := by rcases hh with rfl | rfl <;> assumption
      have hcap := hp.mem_capacity
      rw [hm] at hcap
      simp only
      unfold playTick
      simp only [drive_chan]
      have hrem := hp.rem_le h (by simp [hm])
      rcases hr : s.chan.rem with _ | _ | r
      · exact absurd hr (by have := hp.rem_pos; omega)
      · simp only
        cases hs : s.chan.seg with
        | a =>
          refine ⟨_, rfl, fun h => by simp [hb] at h, fun _ => ⟨hb, st, hst, ?_⟩⟩
          constructor
          · simp [hm]
          · simpa using hp.mem_symbols
          · simpa using hp.mem_capacity
          · simpa using hB
          · simp [hm, segmentTicks]
          · simpa using hp.offset_le
        | b =>
          simp only [finishSymbol]
          cases rest with
          | cons g gs =>
            refine ⟨_, rfl, fun h => by simp [startHead, hb] at h, fun _ => ⟨hb, st, hst, ?_⟩⟩
            simp only [startHead, setChan_chan]
            have hg := hrest g (by simp)
            constructor
            · simp
            · exact hrest
            · simp only [List.length_cons] at hcap ⊢; omega
            · rcases hg with rfl | rfl <;> assumption
            · simp [segmentTicks]
            · simpa using hp.offset_le
          | nil =>
            simp only [refill, setChan_strip, drive_strip, hst, setChan_chan, setChan_params, drive_params]
            refine ⟨_, rfl, ?_⟩
            simp only [startHead, setChan_chan]
            cases hf : (fillFrom s.params st s.chan.offset).1 with
            | nil =>
              refine ⟨fun _ => ⟨rfl, ?_⟩, fun h => by simp [endFrame, Chan.idle] at h⟩
              simp [endFrame, segmentLevel, hlB]
            | cons g gs =>
              refine ⟨fun h => by simp [hb] at h, fun _ => ⟨hb, st, rfl, ?_⟩⟩
              have hg : ∀ y ∈ g :: gs, y = st.zeroSym ∨ y = st.oneSym := fun y hy => mem_fillFrom (by rw [hf]; exact hy)
              constructor
              · simp
              · exact hg
              · have := fillFrom_le s.params st s.chan.offset; rw [hf] at this; exact this
              · rcases hg g (by simp) with rfl | rfl <;> assumption
              · simp [segmentTicks]
              · simp only [setChan_chan, fillFrom_snd]
                have := hp.offset_le
                omega
      · simp only
        refine ⟨_, rfl, fun h => by simp [hb] at h, fun _ => ⟨hb, st, hst, ?_⟩⟩
        constructor
        · simp [hm]
        · simpa using hp.mem_symbols
        · simpa using hp.mem_capacity
        · simp
        · intro h' hh'
          have := hp.rem_le h' (by simpa using hh')
          simp only [setChan_chan] at this ⊢
          omega
        · simpa using hp.offset_le
  · rw [if_neg hb]
    simp only [Bool.not_eq_true] at hb
    refine ⟨_, rfl, fun _ => ⟨by simpa using hi.idle_shape hb, rfl⟩, fun h => by simp [hb] at h⟩

/-- The strip record of an INIT whose checks passed (41_pixel_buffer.md R121) is a legal one, where its divisor meets
the range premise (70_reset_and_hazards.md R225). -/
theorem initStrip_ok {p : Params} {prof : Profile} {cfg div : Word} (h : InitChecked p prof cfg div)
    (hr : countsFit p (divDivisor div)) :
    StripOk p (initStrip p prof cfg div) :=
  { count_pos := Nat.one_le_iff_ne_zero.2 h.count
    count_le := by simp only [initStrip, cfgCount]; omega
    div_pos := Nat.one_le_iff_ne_zero.2 h.divisor
    div_le := by simp only [initStrip, divDivisor]; omega
    profile := ⟨prof, h.profile, rfl, rfl⟩
    symbols := h.symbols
    idle := rfl
    timeout := rfl
    idle_lt := hr.1
    timeout_lt := hr.2
    capacity := h.capacity
    buf_wf := Memory.wf_nil
    buf_bound := by simp [initStrip] }

end Sys2Proof.Machine
end

