-- ==== Sys2Proof/Laws/PerInstr.lean ====
section
/-! SUPPORT. Statements about every command as syntax, one lemma for each constructor. -/

namespace Sys2Proof.Laws

/-- Bits 3:0 of the encoded word are the command's opcode and bits 31:4 its ignored bits (30_encoding.md R81,
R82). -/
def EncodedFields.Statement (i : Instr) : Prop :=
  (encode i).extractLsb' 0 4 = i.opcode ∧ (encode i).extractLsb' 4 28 = i.ignoredBits

theorem encode_fields (i : Instr) : EncodedFields.Statement i := by
  unfold EncodedFields.Statement encode
  constructor
  · exact BitVec.extractLsb'_append_eq_right
  · exact BitVec.extractLsb'_append_eq_left

theorem EncodedFields.init (ignored : BitVec 28) : EncodedFields.Statement (.init ignored) := encode_fields _

theorem EncodedFields.setPixel (ignored : BitVec 28) : EncodedFields.Statement (.setPixel ignored) := encode_fields _

theorem EncodedFields.flush (ignored : BitVec 28) : EncodedFields.Statement (.flush ignored) := encode_fields _

theorem EncodedFields.release (ignored : BitVec 28) : EncodedFields.Statement (.release ignored) := encode_fields _

theorem EncodedFields.reserved0 (ignored : BitVec 28) : EncodedFields.Statement (.reserved0 ignored) := encode_fields _

theorem EncodedFields.reserved5 (ignored : BitVec 28) : EncodedFields.Statement (.reserved5 ignored) := encode_fields _

theorem EncodedFields.reserved6 (ignored : BitVec 28) : EncodedFields.Statement (.reserved6 ignored) := encode_fields _

theorem EncodedFields.reserved7 (ignored : BitVec 28) : EncodedFields.Statement (.reserved7 ignored) := encode_fields _

theorem EncodedFields.reserved8 (ignored : BitVec 28) : EncodedFields.Statement (.reserved8 ignored) := encode_fields _

theorem EncodedFields.reserved9 (ignored : BitVec 28) : EncodedFields.Statement (.reserved9 ignored) := encode_fields _

theorem EncodedFields.reservedA (ignored : BitVec 28) : EncodedFields.Statement (.reservedA ignored) := encode_fields _

theorem EncodedFields.reservedB (ignored : BitVec 28) : EncodedFields.Statement (.reservedB ignored) := encode_fields _

theorem EncodedFields.reservedC (ignored : BitVec 28) : EncodedFields.Statement (.reservedC ignored) := encode_fields _

theorem EncodedFields.reservedD (ignored : BitVec 28) : EncodedFields.Statement (.reservedD ignored) := encode_fields _

theorem EncodedFields.reservedE (ignored : BitVec 28) : EncodedFields.Statement (.reservedE ignored) := encode_fields _

theorem EncodedFields.reservedF (ignored : BitVec 28) : EncodedFields.Statement (.reservedF ignored) := encode_fields _

end Sys2Proof.Laws
end

