-- ==== Sys2Proof/Tests/Slice0.lean ====
section
/-! SUPPORT. Tests of the model, with the vectors of spec/95_test_vectors.md as the expected results, and for each
statement with hypotheses a state and operands that meet them together (`witness_…`). -/

namespace Sys2Proof.Tests

open Sys2Proof Sys2Proof.Machine

/-! ## Example configurations and states (95_test_vectors.md, part 0) -/

def profile0 : Profile := ⟨400, 850, 800, 450, .grb, by decide, by decide, by decide, by decide⟩

def profile2 : Profile := ⟨350, 1360, 1360, 350, .rgb, by decide, by decide, by decide, by decide⟩

/-- S9's profile: a low time that compiles to 120000 ticks. -/
def profileLong : Profile := ⟨400, 3000000, 800, 450, .grb, by decide, by decide, by decide, by decide⟩

/-- S10's profile: a low time that compiles to exactly 32767 ticks. -/
def profileLast : Profile := ⟨400, 819175, 800, 450, .grb, by decide, by decide, by decide, by decide⟩

def exProfiles : Vector (Option Profile) 8 :=
  #v[some profile0, none, some profile2, some profileLong, some profileLast, none, none, none]

/-- Configuration A16, with the register window at 64. -/
def paramsA16 : Params :=
  { fTimer := 80000000, profiles := exProfiles, bufCapacity := 16, pulseMemSymbols := 64, base := 64
    timeoutNs := 1000000000, idleNs := 50000, timeout_pos := by decide, idle_pos := by decide }

/-- Configuration T. -/
def paramsT : Params :=
  { fTimer := 10000000, profiles := exProfiles, bufCapacity := 16, pulseMemSymbols := 8
    timeoutNs := 1000000000, idleNs := 50000, timeout_pos := by decide, idle_pos := by decide }

/-- A timer of 5 GHz: its timeout is past 32 bits at the divisor 1 and within them at 2 (R225). -/
def paramsFast : Params :=
  { fTimer := 5000000000, profiles := exProfiles
    timeoutNs := 1000000000, idleNs := 50000, timeout_pos := by decide, idle_pos := by decide }

/-- Configuration A's timer with a timeout of 60 s, within 32 bits at the divisor 2 (R8, R225). -/
def paramsLongWait : Params :=
  { fTimer := 80000000, profiles := exProfiles
    timeoutNs := 60000000000, idleNs := 50000, timeout_pos := by decide, idle_pos := by decide }

/-- The reset state with given parameters, a script and the oracle's answers. -/
def host (p : Params) (script : List HostOp) (verdicts : List Verdict) : State :=
  { State.reset with params := p, env := { Env.launch with script := script, verdicts := verdicts } }

/-- A state with the operand registers set. -/
def withOperands (cfg div index color : Word) (s : State) : State :=
  { s with regs := { s.regs with cfg := cfg, div := div, index := index, color := color } }

/-- N8's strip: four channels, 4 pixels, GPIO 18; the durations are those of the table of part 0. -/
def stripN8 : Strip :=
  { dev := 0#3, four := true, count := 4, gpio := 18#8, div := 2, order := .grb, zeroSym := ⟨true, 16, false, 34⟩
    oneSym := ⟨true, 32, false, 18⟩, idleTicks := 2000, timeoutTicks := 40000000, buf := [] }

/-- L1.1's strip after its two pixels: three channels, 2 pixels. -/
def stripL11 : Strip :=
  { stripN8 with four := false, count := 2, buf := [(0, 20#8), (1, 10#8), (2, 30#8), (3, 2#8), (4, 1#8), (5, 3#8)] }

/-- P3's strip of one white pixel, under T. -/
def stripT : Strip :=
  { dev := 0#3, four := false, count := 1, gpio := 0#8, div := 1, order := .grb, zeroSym := ⟨true, 4, false, 9⟩
    oneSym := ⟨true, 8, false, 5⟩, idleTicks := 500, timeoutTicks := 10000000
    buf := [(0, 255#8), (1, 255#8), (2, 255#8)] }

/-- An encoder with the strip `st`, no frame in flight. -/
def idleWith (p : Params) (st : Strip) : State := { host p [] [.accept] with strip := some st }

/-- A frame in flight: one one-symbol left, in its low segment with `n` ticks to go. -/
def lastLow (n : Nat) : Chan := { busy := true, mem := [⟨true, 8, false, 5⟩], offset := 3, seg := .b, rem := n }

/-- A frame of `stripT` in flight, with `n` ticks to go. -/
def endingIn (n : Nat) (timeout : Nat) : State :=
  { idleWith paramsT { stripT with timeoutTicks := timeout } with chan := lastLow n }

/-- A FLUSH of `stripT` just issued, no frame in flight. -/
def waiting : State :=
  { idleWith paramsT stripT with
    ctl := Ctl.waiting
    regs := { cfg := 0x00010000#32, div := 1#32, index := 0#32, color := 0#32, result := 0x007#32, bufAddr := 0#32 } }

/-- That FLUSH on the last tick of its idle gap but one. -/
def lastGap (verdicts : List Verdict) : State :=
  { waiting with ctl := { phase := .idleGap, waitCnt := 0, gapCnt := 499 }, env := { waiting.env with verdicts := verdicts } }

/-- The next state of a step or a command. -/
def nextOf (o : Host.Outcome State Fault Refusal) : Option State :=
  match o with
  | .next s => some s
  | .fault _ => none
  | .refused _ => none

/-- The RESULT a command leaves. -/
def resultOf (o : Host.Outcome State Fault Refusal) : Option Word := (nextOf o).map (fun s => s.regs.result)

/-- The buffer a command leaves. -/
def bytesOf (o : Host.Outcome State Fault Refusal) : Option (List Byte) := (nextOf o).bind (fun s => s.strip.map Strip.bytes)

/-! ## WellFormed refuses each kind of ill-formed term -/

/-- CFGWORD's operands, each one past its field (R84). -/
theorem test_cfgWord_refused :
    CfgWord.wellFormed ⟨8, 0, 0, 1⟩ = false ∧ CfgWord.wellFormed ⟨0, 2, 0, 1⟩ = false ∧
    CfgWord.wellFormed ⟨0, 0, 256, 1⟩ = false ∧ CfgWord.wellFormed ⟨0, 0, 0, 65536⟩ = false := by decide

/-- INIT's words (R93). -/
theorem test_pseudo_init_refused :
    Pseudo.wellFormed (.init 4294967296 2) = false ∧ Pseudo.wellFormed (.init 0 4294967296) = false := by decide

/-- SETPX's index and channels (R85, R86). -/
theorem test_pseudo_setpx_refused :
    Pseudo.wellFormed (.setpx 4294967296 0 0 0 0) = false ∧ Pseudo.wellFormed (.setpx 0 256 0 0 0) = false ∧
    Pseudo.wellFormed (.setpx 0 0 256 0 0) = false ∧ Pseudo.wellFormed (.setpx 0 0 0 256 0) = false ∧
    Pseudo.wellFormed (.setpx 0 0 0 0 256) = false := by decide

/-! ## Decoding: words written out from the opcode map (30_encoding.md R81, R82) -/

theorem test_decode_commands :
    decode [0x01#8, 0#8, 0#8, 0#8] = .ok (.init 0#28, []) ∧
    decode [0xF2#8, 0xFF#8, 0xFF#8, 0xFF#8] = .ok (.setPixel 0xFFFFFFF#28, []) ∧
    decode [0x13#8, 0#8, 0#8, 0#8] = .ok (.flush 1#28, []) ∧
    decode [0x04#8, 0#8, 0#8, 0x80#8] = .ok (.release 0x8000000#28, []) := by decide

theorem test_decode_reserved_low :
    decode [0x00#8, 0#8, 0#8, 0#8] = .ok (.reserved0 0#28, []) ∧
    decode [0x25#8, 0#8, 0#8, 0#8] = .ok (.reserved5 2#28, []) ∧
    decode [0x06#8, 1#8, 0#8, 0#8] = .ok (.reserved6 0x10#28, []) ∧
    decode [0x07#8, 0#8, 1#8, 0#8] = .ok (.reserved7 0x1000#28, []) ∧
    decode [0x08#8, 0#8, 0#8, 1#8] = .ok (.reserved8 0x100000#28, []) ∧
    decode [0x09#8, 0#8, 0#8, 0#8] = .ok (.reserved9 0#28, []) := by decide

theorem test_decode_reserved_high :
    decode [0x0A#8, 0#8, 0#8, 0#8] = .ok (.reservedA 0#28, []) ∧
    decode [0x0B#8, 0#8, 0#8, 0#8] = .ok (.reservedB 0#28, []) ∧
    decode [0x0C#8, 0#8, 0#8, 0#8] = .ok (.reservedC 0#28, []) ∧
    decode [0x0D#8, 0#8, 0#8, 0#8] = .ok (.reservedD 0#28, []) ∧
    decode [0x0E#8, 0#8, 0#8, 0#8] = .ok (.reservedE 0#28, []) ∧
    decode [0x0F#8, 0#8, 0#8, 0#8] = .ok (.reservedF 0#28, []) := by decide

/-- Fewer than four bytes are no command (R92). -/
theorem test_decode_short : decode [0x01#8, 0#8, 0#8] = .error .tooShort := by decide

/-- CFGWORD and SETPX's colour word of L1.1 and L1.2. -/
theorem test_pseudo_words :
    cfgWord ⟨0, 0, 18, 2⟩ = 0x00021200#32 ∧ cfgWord ⟨2, 1, 5, 1⟩ = 0x0001050A#32 ∧
    colorWord 5 6 7 9 = 0x09070605#32 := by decide

/-! ## The symbol compiler (S1 to S7, S12 to S14, the table of part 0) -/

theorem test_ticks :
    ticks 400 80000000 2 = 16 ∧ ticks 850 80000000 2 = 34 ∧ ticks 1360 80000000 2 = 54 ∧
    ticks 150 10000000 1 = 2 ∧ ticks 250 10000000 1 = 3 ∧ ticks 149 10000000 1 = 1 ∧
    ticks 400 80000000 255 = 0 := by decide

theorem test_wait_counts :
    idleTicksFor paramsT 3 = 167 ∧ timeoutTicksFor paramsT 3 = 3333334 ∧ timeoutTicksFor paramsA16 1 = 80000000 ∧
    idleTicksFor paramsA16 2 = 2000 ∧ timeoutTicksFor paramsFast 2 = 2500000000 ∧
    timeoutTicksFor paramsLongWait 2 = 2400000000 ∧ countsFit paramsFast 2 ∧ ¬ countsFit paramsFast 1 := by decide

theorem test_symbol_words :
    symbolWord ⟨true, 16, false, 34⟩ = 0x00228010#32 ∧ symbolWord ⟨true, 54, false, 14⟩ = 0x000E8036#32 := by decide

/-! ## The commands -/

/-- N8: the strip INIT latches. -/
theorem test_init_latches :
    nextOf (exec (.init 0#28) (withOperands 0x00041208#32 2#32 0#32 0#32 (host paramsA16 [] [.accept]))) = some
      { withOperands 0x00041208#32 2#32 0#32 0#32 (host paramsA16 [] []) with
        strip := some stripN8
        env := { Env.launch with asked := [.configure 18#8 2], draws := 1 } } := by decide

/-- N1 to N6, N10, N12, N13, S9, S10: the first failing check decides. -/
theorem test_init_errors :
    ([(2, 0x00011207), (2, 0x00001200), (0, 0x00011200), (0, 0x00001207), (0, 0x00001200), (2, 0x00061200),
      (255, 0x00061200), (2, 0x00011200), (2, 0x00061200), (2, 0x00011203), (2, 0x00011204)].map fun (div, cfg) =>
        resultOf (exec (.init 0#28) (withOperands cfg div 0#32 0#32 (host paramsA16 [] [.refuse])))) =
      [some 0x301#32, some 0x401#32, some 0x701#32, some 0x301#32, some 0x401#32, some 0x102#32,
       some 0x801#32, some 0x104#32, some 0x102#32, some 0x801#32, some 0x104#32] := by decide

/-- P1, and P7 on L1.1's strip. -/
theorem test_setPixel :
    bytesOf (exec (.setPixel 0#28) (withOperands 0#32 2#32 3#32 0x09070605#32 (idleWith paramsA16 stripN8))) =
      some [0, 0, 0, 0, 0, 0, 0, 0, 0, 0, 0, 0, 6, 5, 7, 9] ∧
    bytesOf (exec (.setPixel 0#28) (withOperands 0#32 2#32 1#32 0xFF030201#32 (idleWith paramsA16 stripL11))) =
      some [20, 10, 30, 2, 1, 3] ∧
    bytesOf (exec (.setPixel 0#28) (withOperands 0#32 2#32 0#32 0#32 (idleWith paramsA16 stripL11))) =
      some [0, 0, 0, 2, 1, 3] := by decide

/-- L1, P2, P3, P4, P5. -/
theorem test_setPixel_errors :
    resultOf (exec (.setPixel 0#28) (host paramsA16 [] [])) = some 0x101#32 ∧
    resultOf (exec (.setPixel 0#28) (withOperands 0#32 2#32 4#32 0#32 (idleWith paramsA16 stripN8))) = some 0x201#32 ∧
    resultOf (exec (.setPixel 0#28) (withOperands 0#32 2#32 0xFFFFFFFF#32 0#32 (idleWith paramsA16 stripN8))) =
      some 0x201#32 ∧
    resultOf (exec (.setPixel 0#28) (endingIn 2 20)) = some 0x501#32 ∧
    resultOf (exec (.setPixel 0#28) (withOperands 0#32 2#32 9#32 0#32 (endingIn 2 20))) = some 0x201#32 := by decide

/-- F1 and L2: STATUS and RESULT right after the write. -/
theorem test_flush :
    (nextOf (exec (.flush 0#28) (idleWith paramsA16 stripL11))).map (fun s => (statusWord s, s.regs.result)) =
        some (0x15#32, 0x007#32) ∧
    (nextOf (exec (.flush 0#28) (host paramsA16 [] []))).map (fun s => (statusWord s, s.regs.result)) =
        some (0#32, 0x101#32) := by decide

/-- L3, L4, L5. -/
theorem test_release :
    resultOf (exec (.release 0#28) (host paramsA16 [] [])) = some 0x101#32 ∧
    nextOf (exec (.release 0#28) (idleWith paramsA16 stripL11)) = some (host paramsA16 [] [.accept]) ∧
    resultOf (exec (.release 0#28) (endingIn 2 20)) = some 0x501#32 := by decide

/-- E9, E10, L7. -/
theorem test_reserved :
    (reservedCommands 0#28).map (fun i => resultOf (exec i (host paramsA16 [] []))) =
      List.replicate 12 (some 0x901#32) ∧
    nextOf (exec (.reserved0 0#28) (endingIn 2 20)) = some ((endingIn 2 20).setResult 0x901#32) := by decide

/-- E13: a command during a FLUSH. -/
theorem test_overlap :
    nextOf (exec (.setPixel 0#28) waiting) = some { waiting with faults := ⟨true, false⟩ } := by decide

/-! ## Accesses (E1, E3, E4, E11, E12, B2 to B4) -/

theorem test_register_writes :
    nextOf (step (host paramsA16 [.wr .cfg 0xFFFFFFFF#32] [])) =
      some (withOperands 0xFFFFFF0F#32 2#32 0#32 0#32 (host paramsA16 [] [])) ∧
    nextOf (step (host paramsA16 [.wr .div 0x00001234#32] [])) =
      some (withOperands 0#32 0x34#32 0#32 0#32 (host paramsA16 [] [])) ∧
    nextOf (step (host paramsA16 [.wr .status 0xFFFFFFFF#32] [])) = some (host paramsA16 [] []) ∧
    nextOf (step (host paramsA16 [.busWrite 68 [0xFF#8, 0xFF#8]] [])) =
      some { host paramsA16 [] [] with faults := ⟨false, true⟩ } := by decide

theorem test_bufData :
    ([0, 5, 6, 0xFFFFFFFF].map fun a =>
      bufDataWord { idleWith paramsA16 stripL11 with regs := { Regs.reset with bufAddr := a } }) =
      [20#32, 3#32, 0#32, 0#32] := by decide

/-! ## The translator (X1, X4 to X7) -/

theorem test_translate :
    let z : Symbol := ⟨true, 4, false, 9⟩
    let o : Symbol := ⟨true, 8, false, 5⟩
    translate [0xA5#8] 64 z o = ([o, z, o, z, z, o, z, o], 1) ∧ translate [1, 2, 3] 7 z o = ([], 0) ∧
    translate [1, 2, 3] 8 z o = ([z, z, z, z, z, z, z, o], 1) ∧
    translate [1, 2, 3] 15 z o = ([z, z, z, z, z, z, z, o], 1) ∧
    translate [1, 2, 3] 16 z o = ([z, z, z, z, z, z, z, o, z, z, z, z, z, z, o, z], 2) := by decide

/-! ## Ticks (F1, F3, F4, F6, F7) -/

/-- F6: the submit, on the last tick of the idle gap, ends the FLUSH OK; F7: refused, with SUBMIT_REFUSED. -/
theorem test_submit :
    (match tick (lastGap [.accept]) with
      | .ok t => some (statusWord t, t.regs.result, t.line, t.chan.mem.length) | .error _ => none) =
        some (0x03#32, 0#32, false, 8) ∧
    (match tick (lastGap [.refuse]) with
      | .ok t => some (statusWord t, t.regs.result, t.line, t.chan.mem.length) | .error _ => none) =
        some (0x01#32, 0x204#32, false, 0) := by decide

/-- F3, F4: on the timeout's last tick a frame that goes on ends the FLUSH with WAIT_TIMEOUT; one that ends does not. -/
theorem test_timeout :
    (match tick { endingIn 2 20 with ctl := { phase := .waitDone, waitCnt := 19, gapCnt := 0 } } with
      | .ok t => some (statusWord t, t.regs.result) | .error _ => none) = some (0x03#32, 0x103#32) ∧
    (match tick { endingIn 1 20 with ctl := { phase := .waitDone, waitCnt := 19, gapCnt := 0 } } with
      | .ok t => some (statusWord t) | .error _ => none) = some 0x25#32 := by decide

/-! ## Witnesses: states and operands that meet each statement's hypotheses together -/

/-- `stripT` is a strip record as INIT latches it. -/
theorem stripT_ok : StripOk paramsT stripT where
  count_pos := by decide
  count_le := by decide
  div_pos := by decide
  div_le := by decide
  profile := ⟨profile0, by decide, by decide, by decide⟩
  symbols := by decide
  idle := by decide
  timeout := by decide
  idle_lt := by decide
  timeout_lt := by decide
  capacity := by decide
  buf_wf := by decide
  buf_bound := by decide

/-- A FLUSH just issued meets the invariant. -/
theorem waiting_inv : waiting.Inv where
  cfg_reserved := by decide
  div_reserved := by decide
  result_produced := by decide
  pending_iff := by decide
  strip_ok := fun st h => by
    obtain rfl : stripT = st := Option.some.inj h
    exact stripT_ok
  idle_shape := fun _ => rfl
  idle_line := fun _ => rfl
  busy_playing := fun h => absurd h (by decide)
  ready_shape := fun h => absurd h (by decide)
  wait_bound := fun _ => ⟨stripT, rfl, by decide, rfl⟩
  gap_bound := fun h => absurd h (by decide)
  line_trace := rfl

theorem witness_IgnoredBitsDoNotChangeTheCommand :
    0x00000002#32 &&& 0xF#32 = 0xFFFFFFF2#32 &&& 0xF#32 ∧ decodeWord 0x00000002#32 = some (.setPixel 0#28) ∧
    decodeWord 0xFFFFFFF2#32 = some (.setPixel 0xFFFFFFF#28) := by decide

/-- Every operand at the top of its field. -/
theorem witness_CfgWordFieldsAreItsOperands : CfgWord.wellFormed ⟨7, 1, 255, 65535⟩ = true := by decide

theorem witness_StepRunsTheDecodedCommand :
    (host paramsT [.wr .cmd 0x3#32, .reset] []).env.script = .wr .cmd 0x3#32 :: [.reset] ∧
    decodeWord 0x3#32 = some (.flush 0#28) ∧
    decodeTableWord 32 (0xFFFFFFF2#32).toNat = some (.setPixel 0xFFFFFFF#28) := by decide

theorem witness_RawAccessIsTheRegisterAccess :
    (host paramsA16 [.busWrite 0x6C (wordBytes 7#32)] []).env.script =
      [.busWrite (paramsA16.base + regOffset .line) (wordBytes 7#32)] ∧
    (host paramsA16 [.busRead 0x40 4] []).env.script = [.busRead (paramsA16.base + regOffset .cmd) 4] := by decide

theorem witness_StepTicks :
    (host paramsT [] []).env.script = [] ∧ (host paramsT [.ticks 2] []).env.script = .ticks (0 + 2) :: [] := by decide

theorem witness_TicksItemIsThatManyTicks :
    (host paramsT [.ticks 1] []).env.script = .ticks (0 + 1) :: [] ∧ ∃ t, tickN (0 + 1) (host paramsT [.ticks 1] []) = .ok t :=
  ⟨rfl, _, rfl⟩

/-- WAITCMD done, and WAITCMD to be repeated. -/
theorem witness_PollRepeatsUntilTheValue :
    (host paramsT [.poll .status 4#32 0#32] []).env.script = .poll .status 4#32 0#32 :: [] ∧
    readReg .status (host paramsT [.poll .status 4#32 0#32] []) &&& 4#32 = 0#32 ∧
    readReg .status (waiting.setScript [.poll .status 4#32 0#32]) &&& 4#32 ≠ 0#32 := by decide

theorem witness_SetpxRunsSetPixelOnItsOperands :
    Pseudo.wellFormed (.setpx 4294967295 255 255 255 255) = true ∧
    (host paramsT (expand (.setpx 4294967295 255 255 255 255) ++ [.reset]) []).env.script =
      expand (.setpx 4294967295 255 255 255 255) ++ [.reset] := by decide

/-- N8: the buffer is exactly the capacity; S10: a duration is exactly DUR_MAX. -/
theorem witness_InitLatchesTheStripAndCompletes :
    let s := withOperands 0x00041208#32 2#32 0#32 0#32 (host paramsA16 [] [.accept])
    s.ctl.phase = .ready ∧ s.strip = none ∧ s.params.profile (s.regs.cfg.extractLsb' 0 3) = some profile0 ∧
    (s.regs.cfg.extractLsb' 16 16).toNat ≠ 0 ∧ (s.regs.div.extractLsb' 0 8).toNat ≠ 0 ∧
    compileSymbols profile0 s.params.fTimer (s.regs.div.extractLsb' 0 8).toNat = (stripN8.zeroSym, stripN8.oneSym) ∧
    symOk stripN8.zeroSym stripN8.oneSym = true ∧
    (s.regs.cfg.extractLsb' 16 16).toNat * (if s.regs.cfg.getLsbD 3 then 4 else 3) ≤ s.params.bufCapacity ∧
    verdictFor (.configure (s.regs.cfg.extractLsb' 8 8) (s.regs.div.extractLsb' 0 8).toNat) s = .accept ∧
    symOk (compileSymbols profileLast s.params.fTimer 2).1 (compileSymbols profileLast s.params.fTimer 2).2 = true := by
  decide

theorem witness_InitBufferIsZero :
    let s := withOperands 0x00041208#32 2#32 0#32 0#32 (host paramsA16 [] [.accept])
    ∃ t st, exec (.init 0#28) s = .next t ∧ s.strip = none ∧ t.strip = some st := ⟨_, _, rfl, rfl, rfl⟩

/-- N11, N1. -/
theorem witness_InitReportsTheFirstFailingCheck_first :
    (idleWith paramsA16 stripN8).ctl.phase = .ready ∧ (idleWith paramsA16 stripN8).strip ≠ none ∧
    (let s := withOperands 0x00011207#32 2#32 0#32 0#32 (host paramsA16 [] [])
     s.ctl.phase = .ready ∧ s.strip = none ∧ s.params.profile (cfgDev s.regs.cfg) = none) := by decide

/-- N2, N3: of a type with a profile, a count of 0; a count of 1 with a divisor of 0. -/
theorem witness_InitReportsTheFirstFailingCheck_operands :
    let s := withOperands 0x00001200#32 2#32 0#32 0#32 (host paramsA16 [] [])
    let u := withOperands 0x00011200#32 0#32 0#32 0#32 (host paramsA16 [] [])
    s.ctl.phase = .ready ∧ s.strip = none ∧ s.params.profile (cfgDev s.regs.cfg) = some profile0 ∧
    cfgCount s.regs.cfg = 0 ∧ u.ctl.phase = .ready ∧ u.strip = none ∧
    u.params.profile (cfgDev u.regs.cfg) = some profile0 ∧ cfgCount u.regs.cfg ≠ 0 ∧ divDivisor u.regs.div = 0 := by
  decide

/-- N10 (all durations 0); N6 (18 bytes over 16); N12 (the buffer within the capacity, the channel refuses). -/
theorem witness_InitReportsTheFirstFailingCheck_last :
    let s := withOperands 0x00061200#32 255#32 0#32 0#32 (host paramsA16 [] [])
    let u := withOperands 0x00061200#32 2#32 0#32 0#32 (host paramsA16 [] [])
    let v := withOperands 0x00051200#32 2#32 0#32 0#32 (host paramsA16 [] [.refuse])
    let b := compileSymbols profile0 80000000 255
    (s.strip = none ∧ s.params.profile (cfgDev s.regs.cfg) = some profile0 ∧ cfgCount s.regs.cfg ≠ 0 ∧
      divDivisor s.regs.div ≠ 0 ∧ compileSymbols profile0 s.params.fTimer (divDivisor s.regs.div) = b ∧
      symOk b.1 b.2 = false) ∧
    (u.strip = none ∧ u.params.profile (cfgDev u.regs.cfg) = some profile0 ∧ cfgCount u.regs.cfg ≠ 0 ∧
      divDivisor u.regs.div ≠ 0 ∧
      compileSymbols profile0 u.params.fTimer (divDivisor u.regs.div) = (stripN8.zeroSym, stripN8.oneSym) ∧
      symOk stripN8.zeroSym stripN8.oneSym = true ∧
      u.params.bufCapacity < cfgCount u.regs.cfg * (if cfgFour u.regs.cfg then 4 else 3)) ∧
    (v.strip = none ∧ v.params.profile (cfgDev v.regs.cfg) = some profile0 ∧ cfgCount v.regs.cfg ≠ 0 ∧
      divDivisor v.regs.div ≠ 0 ∧
      compileSymbols profile0 v.params.fTimer (divDivisor v.regs.div) = (stripN8.zeroSym, stripN8.oneSym) ∧
      cfgCount v.regs.cfg * (if cfgFour v.regs.cfg then 4 else 3) ≤ v.params.bufCapacity ∧
      verdictFor (.configure (cfgGpio v.regs.cfg) (divDivisor v.regs.div)) v = .refuse) := by decide

/-- N12, whose oracle's question changes the model's own fields too. -/
theorem witness_InitIsAllOrNothing :
    let s := withOperands 0x00011200#32 2#32 0#32 0#32 (host paramsA16 [] [.refuse])
    s.ctl.phase = .ready ∧ ∃ t, exec (.init 0#28) s = .next t ∧ t.regs.result ≠ 0#32 := ⟨rfl, _, rfl, by decide⟩

/-- P1: the last pixel. -/
theorem witness_SetPixelWritesThePixelOnly :
    let s := withOperands 0#32 2#32 3#32 0x09070605#32 (idleWith paramsA16 stripN8)
    s.ctl.phase = .ready ∧ s.strip = some stripN8 ∧ s.regs.index.toNat < stripN8.count ∧ s.chan.busy = false ∧
    0 < channelSize stripN8.four ∧ 3 < channelSize stripN8.four ∧
    11 < pixelAddress stripN8 s.regs.index.toNat ∧ pixelAddress stripN8 s.regs.index.toNat + channelSize stripN8.four ≤ 16 := by
  decide

theorem witness_SetPixelReplacesOneSlice :
    let s := withOperands 0#32 2#32 3#32 0x09070605#32 (idleWith paramsA16 stripN8)
    s.ctl.phase = .ready ∧ s.strip = some stripN8 ∧ s.regs.index.toNat < stripN8.count ∧ s.chan.busy = false ∧
    ∃ t, exec (.setPixel 0#28) s = .next t := ⟨rfl, rfl, by decide, rfl, _, rfl⟩

/-- L1; P2, the first index past the last; P4 at the last index in range. -/
theorem witness_SetPixelErrorsInOrder :
    (host paramsT [] []).ctl.phase = .ready ∧ (host paramsT [] []).strip = none ∧
    (let s := withOperands 0#32 2#32 4#32 0#32 (idleWith paramsA16 stripN8)
     s.ctl.phase = .ready ∧ s.strip = some stripN8 ∧ stripN8.count ≤ s.regs.index.toNat) ∧
    (endingIn 1 20).ctl.phase = .ready ∧ (endingIn 1 20).strip = some { stripT with timeoutTicks := 20 } ∧
    (endingIn 1 20).regs.index.toNat < stripT.count ∧ (endingIn 1 20).chan.busy = true := by decide

/-- P7, beside the same colour with no white. -/
theorem witness_WhiteIsDroppedOnThreeChannels :
    let s := withOperands 0#32 2#32 1#32 0x00030201#32 (idleWith paramsA16 stripL11)
    s.strip = some stripL11 ∧ stripL11.four = false ∧
    0xFF030201#32 &&& 0x00FFFFFF#32 = s.regs.color &&& 0x00FFFFFF#32 ∧
    (∃ t, exec (.setPixel 0#28) s = .next t) ∧
    ∃ u, exec (.setPixel 0#28) { s with regs := { s.regs with color := 0xFF030201#32 } } = .next u :=
  ⟨rfl, rfl, by decide, ⟨_, rfl⟩, _, rfl⟩

/-- With a frame in flight and a strip; with no strip. -/
theorem witness_FlushEntersItsSequence :
    (endingIn 1 20).ctl.phase = .ready ∧ (endingIn 1 20).strip ≠ none ∧
    (host paramsT [] []).ctl.phase = .ready ∧ (host paramsT [] []).strip = none := by decide

theorem witness_ReleaseRemovesTheStrip :
    (host paramsT [] []).ctl.phase = .ready ∧ (host paramsT [] []).strip = none ∧
    (endingIn 1 20).ctl.phase = .ready ∧ (endingIn 1 20).strip ≠ none ∧ (endingIn 1 20).chan.busy = true ∧
    (idleWith paramsT stripT).ctl.phase = .ready ∧ (idleWith paramsT stripT).strip ≠ none ∧
    (idleWith paramsT stripT).chan.busy = false := by decide

theorem witness_ReservedOpcodesReportReservedOp :
    Instr.reserved0 0#28 ∈ reservedCommands 0#28 ∧ Instr.reservedF 7#28 ∈ reservedCommands 7#28 ∧
    (endingIn 1 20).ctl.phase = .ready := by decide

theorem witness_CommandDuringFlushIsDropped :
    waiting.ctl.phase ≠ .ready ∧ (lastGap []).ctl.phase ≠ .ready := by decide

theorem witness_CommandFrame :
    (∀ g, Instr.init 0#28 ≠ .flush g) ∧ (∀ g, Instr.flush 0#28 ≠ .init g) ∧ (endingIn 1 20).ctl.phase = .ready :=
  ⟨(fun _ h => by cases h), (fun _ h => by cases h), rfl⟩

/-- SET_PIXEL of pixel 1 of L1.1's strip, with the bytes on either side of it; RESERVED_0x0 on the same strip. -/
theorem witness_CommandMemoryFrame :
    let s := withOperands 0#32 2#32 1#32 0x00030201#32 (idleWith paramsA16 stripL11)
    (∃ t st', exec (.setPixel 0#28) s = .next t ∧ s.strip = some stripL11 ∧ t.strip = some st') ∧
    (∃ t, exec (.reserved0 0#28) s = .next t ∧ t.strip = some stripL11) ∧
    (∀ g, Instr.reserved0 0#28 ≠ .setPixel g) ∧ 2 < pixelAddress stripL11 s.regs.index.toNat ∧
    pixelAddress stripL11 s.regs.index.toNat + channelSize stripL11.four ≤ 6 :=
  ⟨⟨_, _, rfl, rfl, rfl⟩, ⟨_, rfl, rfl⟩, (fun _ h => by cases h), by decide, by decide⟩

theorem witness_CommandResultsAreTheListed :
    let s := idleWith paramsT stripT
    s.ctl.phase = .ready ∧ (∃ t, exec (.init 0#28) s = .next t) ∧ (∃ t, exec (.setPixel 0#28) s = .next t) ∧
    (∃ t, exec (.flush 0#28) s = .next t) ∧ (∃ t, exec (.release 0#28) s = .next t) ∧
    (∃ t, exec (.reserved5 0#28) s = .next t) ∧ Instr.reserved5 0#28 ∈ reservedCommands 0#28 :=
  ⟨rfl, ⟨_, rfl⟩, ⟨_, rfl⟩, ⟨_, rfl⟩, ⟨_, rfl⟩, ⟨_, rfl⟩, by decide⟩

/-- For every register: a script that begins with its WR. -/
theorem witness_RegisterWrites (r : Reg) :
    (host paramsT [.wr r 0xFFFFFFFF#32] []).env.script = .wr r 0xFFFFFFFF#32 :: [] ∧
    host paramsT [] [] = { host paramsT [.wr r 0xFFFFFFFF#32] [] with
      env := { (host paramsT [.wr r 0xFFFFFFFF#32] []).env with script := [] } } ∧
    Reg.status ∈ [Reg.status, .result, .zeroSym, .oneSym, .bufData, .line] := ⟨rfl, rfl, by decide⟩

theorem witness_RegisterReads : (host paramsT [.rd .line] []).env.script = .rd .line :: [] := rfl

theorem witness_StatusFieldsAndValues : waiting.Inv := waiting_inv

/-- Both registers, a duration of DUR_MAX among them. -/
theorem witness_SymbolRegisterFields :
    (host paramsT [] []).strip = none ∧
    (let st := { stripT with zeroSym := ⟨true, 1, false, 32767⟩ }
     (idleWith paramsT st).strip = some st ∧
     (Reg.zeroSym, st.zeroSym) ∈ [(Reg.zeroSym, st.zeroSym), (.oneSym, st.oneSym)] ∧
     st.zeroSym.durationA ≤ 32767 ∧ st.zeroSym.durationB ≤ 32767) := by decide

theorem witness_BufDataReadsTheByte :
    (host paramsT [] []).strip = none ∧ (idleWith paramsT stripT).strip = some stripT := by decide

/-- The first and the last address of the window, and a two-byte access at a register's offset. -/
theorem witness_UnadmittedAccessIsAFault :
    let s := host paramsA16 [.busWrite 127 [0#8, 0#8, 0#8, 0#8]] []
    let u := host paramsA16 [.busRead 64 2] []
    s.params.base ≤ 127 ∧ 127 < s.params.base + 64 ∧ s.env.script = .busWrite 127 [0#8, 0#8, 0#8, 0#8] :: [] ∧
    (127 - s.params.base) % 4 ≠ 0 ∧ u.params.base ≤ 64 ∧ 64 < u.params.base + 64 ∧
    u.env.script = .busRead 64 2 :: [] ∧ (2 ≠ 4 ∨ (64 - u.params.base) % 4 ≠ 0) := by decide

theorem witness_ReservedOffsets :
    (host paramsA16 [.busWrite 0x70 (wordBytes 7#32)] []).env.script =
      [.busWrite (paramsA16.base + 0x30) (wordBytes 7#32)] ∧
    (host paramsA16 [.busRead 0x7C 4] []).env.script = [.busRead (paramsA16.base + 0x3C) 4] ∧
    0x30 ∈ [0x30, 0x34, 0x38, 0x3C] ∧ 0x3C ∈ [0x30, 0x34, 0x38, 0x3C] := by decide

/-- The first address above the window, and an access that ends just below it. -/
theorem witness_NothingOutsideTheWindowIsDecoded :
    (paramsA16.base + 64 ≤ 128 ∨ 128 + 4 ≤ paramsA16.base ∧ 128 < paramsA16.base) ∧
    (host paramsA16 [.busRead 128 4] []).env.script = .busRead 128 4 :: [] ∧
    (paramsA16.base + 64 ≤ 60 ∨ 60 + 4 ≤ paramsA16.base ∧ 60 < paramsA16.base) ∧
    (host paramsA16 [.busWrite 60 (wordBytes 7#32)] []).env.script = .busWrite 60 (wordBytes 7#32) :: [] ∧
    (wordBytes 7#32).length = 4 := by decide

/-- The least divisor. -/
theorem witness_TicksAreNearest : 1 ≤ 1 := le_rfl

theorem witness_WaitCountsAreRoundedUp : 1 ≤ 255 := by decide

/-- This hardware's times under T, at the least divisor. -/
theorem witness_WaitCountsFit32Bits :
    paramsT.timeoutNs = 1000000000 ∧ paramsT.idleNs = 50000 ∧ paramsT.fTimer ≤ 4294967295 ∧ 1 ≤ 1 := by decide

/-- A FLUSH just issued, with the counters it runs to. -/
theorem witness_CountersFit32Bits : waiting.Inv ∧ waiting.strip = some stripT := ⟨waiting_inv, rfl⟩

theorem witness_TranslateTakesWholeBytes :
    ∃ syms n, translate [1#8, 2#8, 3#8] 15 stripT.zeroSym stripT.oneSym = (syms, n) := ⟨_, _, rfl⟩

theorem witness_FillsMakeUpTheFrame : 8 ≤ 8 := le_rfl

theorem witness_SymbolsReadBackToTheBytes : stripT.zeroSym ≠ stripT.oneSym := by decide

/-- With a strip; without one, in a state that meets the invariant. -/
theorem witness_IdleTick :
    ((idleWith paramsT stripT).chan.busy = false ∧ (idleWith paramsT stripT).ctl.phase = .ready) ∧
    ((host paramsT [.reset] []).Inv ∧ (host paramsT [.reset] []).strip = none) :=
  ⟨⟨rfl, rfl⟩, State.Inv.mk (by decide) (by decide) (by decide) (by decide) (fun _ h => by cases h)
    (fun _ => rfl) (fun _ => rfl) (fun h => absurd h (by decide)) (fun _ => rfl) (fun h => absurd h (by decide))
    (fun h => absurd h (by decide)) rfl, rfl⟩

theorem witness_TickFrame : ∃ t, tick (endingIn 1 20) = .ok t := ⟨_, rfl⟩

/-- The frame's last tick; a tick before the timeout; the timeout's last tick. -/
theorem witness_WaitDoneTick :
    (let s := { endingIn 1 20 with ctl := { phase := .waitDone, waitCnt := 19, gapCnt := 0 } }
     s.ctl.phase = .waitDone ∧ s.strip = some { stripT with timeoutTicks := 20 } ∧
     ∃ u, channelTick s = .ok u ∧ u.chan.busy = false) ∧
    (let s := { endingIn 9 20 with ctl := { phase := .waitDone, waitCnt := 18, gapCnt := 0 } }
     s.ctl.phase = .waitDone ∧ s.strip = some { stripT with timeoutTicks := 20 } ∧
     (∃ u, channelTick s = .ok u ∧ u.chan.busy = true) ∧ s.ctl.waitCnt + 1 < 20) ∧
    (let s := { endingIn 2 20 with ctl := { phase := .waitDone, waitCnt := 19, gapCnt := 0 } }
     s.ctl.phase = .waitDone ∧ s.strip = some { stripT with timeoutTicks := 20 } ∧
     (∃ u, channelTick s = .ok u ∧ u.chan.busy = true) ∧ 20 ≤ s.ctl.waitCnt + 1) :=
  ⟨⟨rfl, rfl, _, rfl, rfl⟩, ⟨rfl, rfl, ⟨_, rfl, rfl⟩, by decide⟩, ⟨rfl, rfl, ⟨_, rfl, rfl⟩, by decide⟩⟩

/-- A tick within the gap; its last tick, refused and accepted. -/
theorem witness_IdleGapTick :
    (let s := { lastGap [] with ctl := { phase := .idleGap, waitCnt := 0, gapCnt := 498 } }
     s.ctl.phase = .idleGap ∧ s.strip = some stripT ∧ (∃ u, channelTick s = .ok u) ∧
     s.ctl.gapCnt + 1 ≠ stripT.idleTicks) ∧
    (let s := lastGap [.refuse]
     s.ctl.phase = .idleGap ∧ s.strip = some stripT ∧ (∃ u, channelTick s = .ok u) ∧
     s.ctl.gapCnt + 1 = stripT.idleTicks ∧ verdictFor (.submit stripT.bufLen) s = .refuse) ∧
    (let s := lastGap [.accept]
     s.ctl.phase = .idleGap ∧ s.strip = some stripT ∧ (∃ u, channelTick s = .ok u) ∧
     s.ctl.gapCnt + 1 = stripT.idleTicks ∧ verdictFor (.submit stripT.bufLen) s = .accept ∧
     ∃ y ys n, translate stripT.bytes s.params.pulseMemSymbols stripT.zeroSym stripT.oneSym = (y :: ys, n)) :=
  ⟨⟨rfl, rfl, ⟨_, rfl⟩, by decide⟩, ⟨rfl, rfl, ⟨_, rfl⟩, rfl, rfl⟩,
   ⟨rfl, rfl, ⟨_, rfl⟩, rfl, rfl, _, _, _, rfl⟩⟩

theorem witness_GeneratorPlaysASymbol :
    let h : Symbol := ⟨true, 1, false, 1⟩
    let s := { idleWith paramsT stripT with chan := { busy := true, mem := [h, h], offset := 3, seg := .a, rem := 1 } }
    s.chan.busy = true ∧ s.chan.mem = h :: h :: [] ∧ s.chan.seg = .a ∧ s.chan.rem = h.durationA ∧
    1 ≤ h.durationA ∧ 1 ≤ h.durationB := by decide

/-- Under T the 3-byte frame takes three fills, and there is a tick 3 of it at which a FLUSH can be issued. -/
theorem witness_FrameWaveformIsPlayedWhole :
    (idleWith paramsT stripT).strip = some stripT ∧ StripOk (idleWith paramsT stripT).params stripT ∧
    (idleWith paramsT stripT).ctl.phase = .ready ∧ (∃ u m, startFrame (idleWith paramsT stripT) = .ok u ∧ tickN 3 u = .ok m) ∧
    (frameWave stripT)[3]? = some true := ⟨rfl, stripT_ok, rfl, ⟨_, _, rfl, rfl⟩, rfl⟩

theorem witness_FlushTimingWithNoFrame :
    waiting.Inv ∧ waiting.strip = some stripT ∧ waiting.ctl = { phase := .waitDone, waitCnt := 0, gapCnt := 0 } ∧
    waiting.chan.busy = false ∧ verdictFor (.submit stripT.bufLen) waiting = .accept :=
  ⟨waiting_inv, rfl, rfl, rfl, rfl⟩

/-- A frame that ends on tick 2, with a timeout of 1 tick and with one of 2. -/
theorem witness_FlushWaitsForTheFrameOrTimesOut (timeout : Nat) (h : timeout = 1 ∨ timeout = 2) :
    let s := { endingIn 2 timeout with ctl := Ctl.waiting }
    s.strip = some { stripT with timeoutTicks := timeout } ∧
    s.ctl = { phase := .waitDone, waitCnt := 0, gapCnt := 0 } ∧ 1 ≤ timeout ∧
    (∃ v, channelTickN 2 s = .ok v ∧ v.chan.busy = false) ∧
    (∀ k, k < 2 → ∃ m, channelTickN k s = .ok m ∧ m.chan.busy = true) ∧ (timeout < 2 ∨ 1 ≤ 2 ∧ 2 ≤ timeout) := by
  refine ⟨rfl, rfl, by omega, ⟨_, rfl, rfl⟩, fun k hk => ?_, by omega⟩
  rcases k with _ | _ | k
  · exact ⟨_, rfl, rfl⟩
  · exact ⟨_, rfl, rfl⟩
  · omega

theorem witness_EveryFlushEnds : waiting.Inv ∧ waiting.strip = some stripT ∧ waiting.ctl.phase ≠ .ready :=
  ⟨waiting_inv, rfl, by decide⟩

/-- A step within a FLUSH; an INIT that latches the divisor 2 under a timer of 5 GHz. -/
theorem witness_StepKeepsTheInvariant :
    (waiting.Inv ∧ ∃ t, step waiting = .next t) ∧
    (let s := withOperands 0x00010000#32 2#32 0#32 0#32 (host paramsFast [.wr .cmd 1#32] [.accept])
     s.Inv ∧ s.strip = none ∧
     ∃ t st, step s = .next t ∧ t.strip = some st ∧ countsFit s.params st.div) :=
  ⟨⟨waiting_inv, _, rfl⟩,
   State.Inv.mk (by decide) (by decide) (by decide) (by decide) (fun _ h => by cases h)
    (fun _ => rfl) (fun _ => rfl) (fun h => absurd h (by decide)) (fun _ => rfl) (fun h => absurd h (by decide))
    (fun h => absurd h (by decide)) rfl, rfl, _, _, rfl, rfl, by decide⟩

theorem witness_NoStepStopsUnderTheInvariant : waiting.Inv := waiting_inv

theorem witness_ResetInput : (waiting.setScript [.reset]).env.script = .reset :: [] := rfl

/-- A reset with both model faults recorded. -/
theorem witness_FaultsAreStickyAndParametersFixed :
    let s := { waiting.setScript [.reset] with faults := ⟨true, true⟩ }
    (∃ t, step s = .next t) ∧ s.faults.has .cmdOverlap = true ∧ s.faults.has .busAccess = true := ⟨⟨_, rfl⟩, rfl, rfl⟩

/-- SET_PIXEL on L1.1's strip. -/
theorem witness_LatchedConfigurationIsFixed :
    let s := (idleWith paramsA16 stripL11).setScript [.wr .cmd 0x2#32]
    ∃ t st', step s = .next t ∧ s.strip = some stripL11 ∧ t.strip = some st' := ⟨_, _, rfl, rfl, rfl⟩

/-- A RELEASE while a frame is in flight. -/
theorem witness_BufferIsFixedDuringAFrame :
    let s := (endingIn 2 20).setScript [.wr .cmd 0x4#32]
    s.chan.busy = true ∧ s.strip = some { stripT with timeoutTicks := 20 } ∧
    (nextEvent s.params.base s.env.script).1 ≠ .reset ∧ ∃ t, step s = .next t := ⟨rfl, rfl, by decide, _, rfl⟩

theorem witness_FramesStartOnlyAtASubmit :
    ∃ t, step (lastGap [.accept]) = .next t ∧ (lastGap [.accept]).chan.busy = false ∧ t.chan.busy = true :=
  ⟨_, rfl, rfl, rfl⟩

end Sys2Proof.Tests
end

section
/-! PROOFS. No step stops under the invariant (00_scope.md R12, 10_state.md R45): every word decodes, so every access
goes on in any state, and under the invariant a tick finds all that its pseudocode reads. -/

namespace Sys2Proof.Machine

/-! ## Every command write goes on -/

/-- A word whose pattern is in the table decodes (30_encoding.md R82). -/
theorem exists_decodeWordIn {rows : List OpcodeRow} {v : Word} (h : ∃ row ∈ rows, v &&& row.mask = row.pattern) :
    ∃ i, decodeWordIn rows v = some i := by
  induction rows with
  | nil => simp at h
  | cons row rows ih =>
    rw [decodeWordIn]
    split
    · exact ⟨_, rfl⟩
    · rename_i hne
      exact ih (by simpa [hne] using h)

/-- The table has a row for each opcode (R82). -/
theorem exists_row_of_opcode :
    ∀ op : BitVec 4, ∃ row ∈ opcodeTable, row.mask = 0xF#32 ∧ row.pattern = op.setWidth 32 := by decide

/-- The mask of the table's rows selects OP, bits 3:0 (R81). -/
theorem and_opcodeMask (v : Word) : v &&& 0xF#32 = (v.extractLsb' 0 4).setWidth 32 := by
  apply BitVec.eq_of_toNat_eq
  have hmod : v.toNat &&& 15 = v.toNat % 16 := Nat.and_two_pow_sub_one_eq_mod v.toNat 4
  simp only [BitVec.toNat_and, BitVec.toNat_ofNat, BitVec.toNat_setWidth, BitVec.extractLsb'_toNat, Nat.shiftRight_zero,
    Nat.reducePow, Nat.reduceMod, hmod]
  omega

/-- Every word is a command (R82, R91). -/
theorem exists_decodeWord (v : Word) : ∃ i, decodeWord v = some i := by
  obtain ⟨row, hrow, hmask, hpat⟩ := exists_row_of_opcode (v.extractLsb' 0 4)
  exact exists_decodeWordIn ⟨row, hrow, by rw [hmask, hpat, and_opcodeMask]⟩

/-- Any four bytes are a command (R80). -/
theorem exists_decode {data : List Byte} (h : data.length = 4) : ∃ i rest, decode data = .ok (i, rest) := by
  obtain ⟨b0, b1, b2, b3, rfl⟩ := List.length_eq_four.1 h
  obtain ⟨i, hi⟩ := exists_decodeWord (wordOfBytes b0 b1 b2 b3)
  exact ⟨i, [], by simp only [decode, hi]⟩

/-- A command write of four bytes goes on, in any state (20_memory.md R65). -/
theorem exists_commandWrite {data : List Byte} (h : data.length = 4) (s : State) :
    ∃ t, commandWrite data s = .next t := by
  obtain ⟨i, rest, hd⟩ := exists_decode h
  simp only [commandWrite, hd, exec_eq_issue, issue]
  exact ⟨_, rfl⟩

/-! ## Every access goes on -/

theorem length_of_admitted {offset nbytes : Nat} (h : admitted offset nbytes = true) : nbytes = 4 := by
  simp only [admitted, Bool.and_eq_true, decide_eq_true_eq] at h
  exact h.1.1

/-- A write goes on, in any state (20_memory.md R62, R65). -/
theorem exists_memWrite (offset : Nat) (data : List Byte) (s : State) : ∃ t, memWrite offset data s = .next t := by
  unfold memWrite
  split
  · rename_i ha
    split
    · exact exists_commandWrite (length_of_admitted ha) s
    · exact ⟨_, rfl⟩
    · exact ⟨_, rfl⟩
  · exact ⟨_, rfl⟩

/-- Every event but a tick goes on, in any state. -/
theorem exists_runEvent {e : Event} {s : State} (htick : e = .tick → ∃ t, tick s = .ok t) :
    ∃ t, runEvent e s = .next t := by
  cases e with
  | tick =>
    obtain ⟨t, ht⟩ := htick rfl
    exact ⟨t, by simp only [runEvent, ht]⟩
  | write offset data => exact exists_memWrite offset data s
  | read offset nbytes => exact ⟨_, rfl⟩
  | poll r mask value => exact ⟨_, rfl⟩
  | straddlingWrite => exact ⟨_, rfl⟩
  | straddlingRead => exact ⟨_, rfl⟩
  | elsewhere => exact ⟨_, rfl⟩
  | reset => exact ⟨_, rfl⟩

/-! ## Every tick goes on under the invariant -/

/-- The first fill of a legal strip's buffer is not empty, so its frame starts (42_translator.md R146). -/
theorem exists_startFrame {s : State} {st : Strip} (hst : s.strip = some st) (hok : StripOk s.params st) :
    ∃ t, startFrame s = .ok t := by
  obtain ⟨symbols, n, hf⟩ : ∃ symbols n, fillFrom s.params st 0 = (symbols, n) := ⟨_, _, rfl⟩
  have hne : symbols ≠ [] := by
    have hnil := fillFrom_nil s.params st 0
    have := hok.bufLen_pos
    rw [hf] at hnil
    exact fun h => absurd (hnil.1 h) (by omega)
  cases symbols with
  | nil => exact absurd rfl hne
  | cons y ys =>
    simp only [startFrame, hst, hf]
    exact ⟨_, rfl⟩

/-- A submit of a legal strip goes on, whatever the channel answers (43_transmission.md R166). -/
theorem exists_submit {s : State} {st : Strip} (hst : s.strip = some st) (hok : StripOk s.params st) :
    ∃ t, submit st s = .ok t := by
  unfold submit
  split
  · exact ⟨_, rfl⟩
  · obtain ⟨t, ht⟩ := exists_startFrame (s := noteQuestion (.submit st.bufLen) s) hst hok
    simp only [ht]
    exact ⟨_, rfl⟩

/-- The controller's tick goes on in READY, and in the other phases where a legal strip stands (R163). -/
theorem exists_controllerTick {s : State}
    (h : s.ctl.phase ≠ .ready → ∃ st, s.strip = some st ∧ StripOk s.params st) : ∃ t, controllerTick s = .ok t := by
  unfold controllerTick
  split
  · exact ⟨_, rfl⟩
  · rename_i hp
    obtain ⟨st, hst, -⟩ := h (by simp [hp])
    simp only [waitTick, hst]
    split
    · exact ⟨_, rfl⟩
    · split <;> exact ⟨_, rfl⟩
  · rename_i hp
    obtain ⟨st, hst, hok⟩ := h (by simp [hp])
    simp only [gapTick, hst]
    split
    · exact exists_submit hst hok
    · exact ⟨_, rfl⟩

/-- Outside READY the invariant gives a legal strip (10_state.md R40, R45). -/
theorem State.Inv.strip_of_not_ready {s : State} (hi : s.Inv) (hp : s.ctl.phase ≠ .ready) :
    ∃ st, s.strip = some st ∧ StripOk s.params st := by
  have hst : ∃ st, s.strip = some st := by
    cases hc : s.ctl.phase with
    | ready => exact absurd hc hp
    | waitDone =>
      obtain ⟨st, hst, -⟩ := hi.wait_bound hc
      exact ⟨st, hst⟩
    | idleGap =>
      obtain ⟨-, st, hst, -⟩ := hi.gap_bound hc
      exact ⟨st, hst⟩
  obtain ⟨st, hst⟩ := hst
  exact ⟨st, hst, hi.strip_ok st hst⟩

/-- A tick goes on under the invariant (43_transmission.md R160): the generator's tick leaves the phase, the strip and
the parameters as they are, so the controller's tick still finds its strip. -/
theorem State.Inv.exists_tick {s : State} (hi : s.Inv) : ∃ t, tick s = .ok t := by
  obtain ⟨u, hu, -⟩ := channelTick_inv hi
  rw [tick_of_channelTick hu]
  apply exists_controllerTick
  rw [channelTick_eq hu]
  exact hi.strip_of_not_ready

/-- The invariant does not speak of the script. -/
theorem State.Inv.setScript {s : State} (hi : s.Inv) (l : List HostOp) : (s.setScript l).Inv :=
  { hi with }

/-- Settles O53: a step is one event, only a tick can stop, and under the invariant none does. -/
theorem noStepStopsUnderTheInvariant : Obligations.NoStepStopsUnderTheInvariant := by
  intro s hi
  rw [step_eq_runEvent]
  exact exists_runEvent fun _ => (hi.setScript _).exists_tick

end Sys2Proof.Machine
end

section
/-! PROOFS. Every step keeps the invariant (10_state.md R45). One rule for each state operation says when the operation
keeps it; the steps are then cases of these rules. -/

namespace Sys2Proof.Machine

/-! ## Each state operation keeps the invariant -/

/-- The invariant does not speak of the world outside. -/
theorem State.Inv.withEnv {s : State} (hi : s.Inv) (env : Env) : State.Inv { s with env := env } :=
  { hi with }

theorem State.Inv.noteQuestion {s : State} (hi : s.Inv) (q : ChanQuestion) : (noteQuestion q s).Inv :=
  hi.withEnv _

/-- The invariant does not speak of the model faults. -/
theorem State.Inv.recordFault {s : State} (hi : s.Inv) (k : ModelFault) : (recordFault k s).Inv :=
  { hi with }

/-- A store keeps the reserved bits of CFG and DIV at 0 (10_state.md R23, R24). -/
theorem State.Inv.storeReg {s : State} (hi : s.Inv) (r : Reg) (v : Word) : (storeReg r v s).Inv := by
  have masked (m : Word) : v &&& m &&& ~~~m = 0#32 := by
    rw [BitVec.and_assoc, BitVec.and_not_self]
    exact BitVec.and_zero
  cases r with
  | cfg => exact { hi with cfg_reserved := masked cfgMask }
  | div => exact { hi with div_reserved := masked divMask }
  | index | color | bufAddr => exact { hi with }
  | cmd | status | result | zeroSym | oneSym | bufData | line => exact hi

/-- A controller and a RESULT that fit each other (60_exceptions.md R199), where the controller has a shape of its
phase (10_state.md R40). -/
theorem State.Inv.setCtl_setResult {s : State} (hi : s.Inv) {c : Ctl} {w : Word} (hw : w ∈ producedResults)
    (hpending : w = pendingWord ↔ c.phase ≠ .ready) (hready : c.phase = .ready → c = Ctl.ready)
    (hwait : c.phase = .waitDone → ∃ st, s.strip = some st ∧ c.waitCnt < st.timeoutTicks ∧ c.gapCnt = 0)
    (hgap : c.phase = .idleGap →
      s.chan.busy = false ∧ ∃ st, s.strip = some st ∧ c.gapCnt < st.idleTicks ∧ c.waitCnt = 0) :
    ((s.setCtl c).setResult w).Inv :=
  { hi with
    result_produced := hw
    pending_iff := hpending
    ready_shape := hready
    wait_bound := hwait
    gap_bound := hgap }

/-- A FLUSH ends with any outcome but PENDING (43_transmission.md R161). -/
theorem State.Inv.endFlush {s : State} (hi : s.Inv) {w : Word} (hw : w ∈ producedResults) (hne : w ≠ pendingWord) :
    (endFlush w s).Inv :=
  hi.setCtl_setResult hw (by simp [hne, Ctl.ready]) (fun _ => rfl) nofun nofun

/-- In READY a RESULT other than PENDING may be written: it is the end of a FLUSH that changes no controller. -/
theorem State.Inv.setResult {s : State} (hi : s.Inv) (hp : s.ctl.phase = .ready) {w : Word}
    (hw : w ∈ producedResults) (hne : w ≠ pendingWord) : (s.setResult w).Inv := by
  have h : s.setResult w = Machine.endFlush w s := by
    rw [Machine.endFlush, ← hi.ready_shape hp]; rfl
  exact h ▸ hi.endFlush hw hne

/-- Every error's RESULT word is a produced one and not PENDING (60_exceptions.md R191). -/
theorem CmdError.word_produced (e : CmdError) : e.word ∈ producedResults ∧ e.word ≠ pendingWord := by
  cases e <;> decide

/-- So is success. -/
theorem okWord_produced : okWord ∈ producedResults ∧ okWord ≠ pendingWord := by decide

theorem State.Inv.raise {s : State} (hi : s.Inv) (hp : s.ctl.phase = .ready) (e : CmdError) : (raise e s).Inv :=
  hi.setResult hp e.word_produced.1 e.word_produced.2

theorem State.Inv.complete {s : State} (hi : s.Inv) (hp : s.ctl.phase = .ready) : (complete s).Inv :=
  hi.setResult hp okWord_produced.1 okWord_produced.2

/-- With no frame in flight and no FLUSH in progress, nothing but the strip record speaks of the strip. -/
theorem State.Inv.setStrip {s : State} (hi : s.Inv) (hp : s.ctl.phase = .ready) (hb : s.chan.busy = false)
    {o : Option Strip} (ho : ∀ st, o = some st → StripOk s.params st) : (s.setStrip o).Inv :=
  { hi with
    strip_ok := ho
    busy_playing := fun h => absurd (hb.symm.trans h) (by decide)
    wait_bound := fun h => absurd (hp.symm.trans h) (by decide)
    gap_bound := fun h => absurd (hp.symm.trans h) (by decide) }

/-- The line goes on, low while the generator is idle (10_state.md R41). -/
theorem State.Inv.drive {s : State} (hi : s.Inv) {l : Level} (hl : s.chan.busy = false → l = false) :
    (s.drive l).Inv :=
  { hi with
    idle_line := hl
    line_trace := by simp }

/-- A generator that is idle in its idle shape, or plays a frame of the strip outside an idle gap
(10_state.md R38, R45). -/
theorem State.Inv.setChan {s : State} (hi : s.Inv) {c : Chan} (hidle : c.busy = false → c = Chan.idle ∧ s.line = false)
    (hplay : c.busy = true → s.ctl.phase ≠ .idleGap ∧ ∃ st, s.strip = some st ∧ Playing s.params st c) :
    (s.setChan c).Inv :=
  { hi with
    idle_shape := fun h => (hidle h).1
    idle_line := fun h => (hidle h).2
    busy_playing := fun h => (hplay h).2
    gap_bound := fun h => ⟨by by_contra hb; exact (hplay (by simpa using hb)).1 h, (hi.gap_bound h).2⟩ }

/-! ## Reset -/

/-- The state after the reset input meets the invariant, whatever the state before (70_reset_and_hazards.md R220). -/
theorem resetEncoder_inv (s : State) : (resetEncoder s).Inv where
  cfg_reserved := show 0#32 &&& ~~~cfgMask = 0#32 by decide
  div_reserved := show Config.divReset &&& ~~~divMask = 0#32 by decide
  result_produced := show 0#32 ∈ producedResults by decide
  pending_iff := show 0#32 = pendingWord ↔ Ctl.ready.phase ≠ .ready by decide
  strip_ok := nofun
  idle_shape _ := rfl
  idle_line _ := rfl
  busy_playing := nofun
  ready_shape _ := rfl
  wait_bound := nofun
  gap_bound := nofun
  line_trace := rfl

/-- Settles O51: the state after reset is what the reset input makes of it. -/
theorem resetMeetsTheInvariant : Obligations.ResetMeetsTheInvariant :=
  resetEncoder_inv State.reset

/-! ## Every command keeps the invariant -/

/-- A busy generator has a strip, so an uninitialised encoder is idle (10_state.md R37). -/
theorem State.Inv.idle_of_no_strip {s : State} (hi : s.Inv) (hs : s.strip = none) : s.chan.busy = false := by
  by_contra hb
  obtain ⟨st, hst, -⟩ := hi.busy_playing (by simpa using hb)
  simp [hs] at hst

/-- SET_PIXEL keeps a strip record legal (41_pixel_buffer.md R125): its bytes lie within the buffer. -/
theorem StripOk.withPixel {p : Params} {st : Strip} (h : StripOk p st) {index : Nat} (hlt : index < st.count)
    (color : Word) : StripOk p (st.withPixel index color) :=
  { h with
    buf_wf := Memory.wf_writeBytes h.buf_wf _ _
    buf_bound := Memory.bound_writeBytes h.buf_bound (by rw [length_pixelBytes]; exact pixelAddress_le hlt) }

/-- The last step of INIT keeps the invariant where the record it would latch is legal (41_pixel_buffer.md R121). -/
theorem State.Inv.initBind {s : State} (hi : s.Inv) (hp : s.ctl.phase = .ready) (hs : s.strip = none) {st : Strip}
    (hok : (initBind st s).strip = some st → StripOk s.params st) : (initBind st s).Inv := by
  have hn := hi.noteQuestion (.configure st.gpio st.div)
  cases hv : verdictFor (.configure st.gpio st.div) s with
  | refuse =>
    rw [initBind_refuse hv]
    exact hn.raise hp _
  | accept =>
    rw [initBind_accept hv] at hok ⊢
    exact (hn.setStrip hp (hi.idle_of_no_strip hs) fun _ h => Option.some.inj h ▸ hok rfl).complete hp

theorem State.Inv.initCommand {s : State} (hi : s.Inv) (hp : s.ctl.phase = .ready)
    (hfit : ∀ st, s.strip = none → (initCommand s).strip = some st → countsFit s.params st.div) :
    (initCommand s).Inv := by
  rcases initCommand_cases s with ⟨e, -, he⟩ | ⟨prof, hs, hchecked, he⟩
  · rw [he]
    exact hi.raise hp e
  · rw [he] at hfit ⊢
    refine hi.initBind hp hs fun h => ?_
    have hcounts := hfit _ hs h
    exact initStrip_ok hchecked hcounts

theorem State.Inv.setPixelCommand {s : State} (hi : s.Inv) (hp : s.ctl.phase = .ready) : (setPixelCommand s).Inv := by
  rcases setPixelCommand_cases s with ⟨e, -, he⟩ | ⟨st, hst, hlt, hb, he⟩
  · rw [he]
    exact hi.raise hp e
  · rw [he]
    have hok := (hi.strip_ok st hst).withPixel hlt s.regs.color
    exact (hi.setStrip hp hb fun _ h => Option.some.inj h ▸ hok).complete hp

theorem State.Inv.releaseCommand {s : State} (hi : s.Inv) (hp : s.ctl.phase = .ready) : (releaseCommand s).Inv := by
  rcases releaseCommand_cases s with ⟨e, -, he⟩ | ⟨-, hb, he⟩
  · rw [he]
    exact hi.raise hp e
  · rw [he]
    exact (hi.setStrip hp hb (by simp)).complete hp

theorem State.Inv.flushCommand {s : State} (hi : s.Inv) (hp : s.ctl.phase = .ready) : (flushCommand s).Inv := by
  rcases flushCommand_cases s with ⟨-, he⟩ | ⟨hs, he⟩
  · rw [he]
    exact hi.raise hp _
  · rw [he]
    obtain ⟨st, hst⟩ := Option.ne_none_iff_exists'.1 hs
    exact hi.setCtl_setResult (by decide) (by decide) nofun
      (fun _ => ⟨st, hst, (hi.strip_ok st hst).timeout_pos, rfl⟩) nofun

/-- Every command keeps the invariant, where the divisor of a strip it latches meets R225's premise. -/
theorem State.Inv.exec {s t : State} (hi : s.Inv) {i : Instr} (h : exec i s = .next t)
    (hfit : ∀ st, s.strip = none → t.strip = some st → countsFit s.params st.div) : t.Inv := by
  by_cases hp : s.ctl.phase = .ready
  · rw [exec_ready hp] at h
    cases h
    cases i with
    | init g => exact hi.initCommand hp hfit
    | setPixel g => exact hi.setPixelCommand hp
    | flush g => exact hi.flushCommand hp
    | release g => exact hi.releaseCommand hp
    | _ => exact hi.raise hp .reservedOp
  · rw [exec_overlap hp] at h
    cases h
    exact hi.recordFault _

/-! ## Every tick keeps the invariant -/

theorem State.Inv.channelTick {s t : State} (hi : s.Inv) (h : channelTick s = .ok t) : t.Inv := by
  obtain ⟨u, hu, hidle, hplay⟩ := channelTick_inv hi
  obtain rfl : u = t := Except.ok.inj (hu.symm.trans h)
  have hbusy : s.chan.busy = false → u.chan.busy = false := fun hb => by
    by_contra hplays
    exact absurd (hb.symm.trans (hplay (by simpa using hplays)).1) (by decide)
  rw [channelTick_eq h]
  refine (hi.drive fun hb => (hidle (hbusy hb)).2).setChan hidle fun hb => ?_
  obtain ⟨hs, hst⟩ := hplay hb
  exact ⟨fun hgap => absurd ((hi.gap_bound hgap).1.symm.trans hs) (by decide), hst⟩

/-- A started frame plays its strip from the first symbol of the first fill (42_translator.md R146). -/
theorem playing_firstFill {p : Params} {st : Strip} (hok : StripOk p st) {y : Symbol} {ys : List Symbol}
    (hf : (fillFrom p st 0).1 = y :: ys) :
    Playing p st ⟨true, y :: ys, (fillFrom p st 0).2, .a, y.durationA⟩ := by
  have hsym : ∀ z ∈ y :: ys, z = st.zeroSym ∨ z = st.oneSym := fun z hz => mem_fillFrom (hf ▸ hz)
  obtain ⟨hz, -, ho, -⟩ := symOk_pos hok.symbols
  exact
    { mem_nonempty := by simp
      mem_symbols := hsym
      mem_capacity := hf ▸ fillFrom_le p st 0
      rem_pos := by rcases hsym y (by simp) with rfl | rfl <;> assumption
      rem_le := by simp [segmentTicks]
      offset_le := by simp only [fillFrom_snd]; omega }

/-- Everything a submit can do (43_transmission.md R166): the channel refuses and the FLUSH ends with that, or it
accepts, the frame starts with its first fill and the FLUSH ends OK. -/
theorem submit_cases {st : Strip} {s t : State} (h : submit st s = .ok t) :
    t = endFlush CmdError.submitRefused.word (noteQuestion (.submit st.bufLen) s) ∨
    (∃ st' y ys, s.strip = some st' ∧ (fillFrom s.params st' 0).1 = y :: ys ∧
      t = (endFlush okWord (noteQuestion (.submit st.bufLen) s)).setChan
        ⟨true, y :: ys, (fillFrom s.params st' 0).2, .a, y.durationA⟩) := by
  unfold submit at h
  split at h
  · cases h
    exact .inl rfl
  · split at h
    · rename_i u hu
      cases h
      obtain ⟨st', y, ys, hst, hf, rfl⟩ := startFrame_ok hu
      exact .inr ⟨st', y, ys, hst, hf, rfl⟩
    · cases h

/-- A submit keeps the invariant wherever the controller stands, which is READY after it: the last gap tick has counted
to the end of the gap, where the invariant's bound is no longer met. -/
theorem State.Inv.submit {s t : State} (hi : s.Inv) {st : Strip} {c : Ctl} (h : submit st (s.setCtl c) = .ok t) :
    t.Inv := by
  have hn := hi.noteQuestion (.submit st.bufLen)
  rcases submit_cases h with rfl | ⟨st', y, ys, hst, hf, rfl⟩
  · exact hn.endFlush (CmdError.word_produced _).1 (CmdError.word_produced _).2
  · have hplay := playing_firstFill (hi.strip_ok st' hst) hf
    exact (hn.endFlush okWord_produced.1 okWord_produced.2).setChan nofun fun _ => ⟨nofun, st', hst, hplay⟩

/-- A controller's tick that goes on within a FLUSH leaves RESULT at PENDING. -/
theorem State.Inv.setCtl {s : State} (hi : s.Inv) (hp : s.ctl.phase ≠ .ready) {c : Ctl} (hc : c.phase ≠ .ready)
    (hwait : c.phase = .waitDone → ∃ st, s.strip = some st ∧ c.waitCnt < st.timeoutTicks ∧ c.gapCnt = 0)
    (hgap : c.phase = .idleGap →
      s.chan.busy = false ∧ ∃ st, s.strip = some st ∧ c.gapCnt < st.idleTicks ∧ c.waitCnt = 0) :
    (s.setCtl c).Inv :=
  hi.setCtl_setResult hi.result_produced (by simpa [hc, hp] using hi.pending_iff) (fun h => absurd h hc) hwait hgap

theorem State.Inv.controllerTick {s t : State} (hi : s.Inv) (h : controllerTick s = .ok t) : t.Inv := by
  rcases controllerTick_cases h with ⟨-, rfl⟩ | ⟨hp, hb, rfl⟩ | ⟨st, -, -, -, -, rfl⟩ | ⟨st, hp, -, hst, hlt, rfl⟩ |
    ⟨st, hp, hst, hne, rfl⟩ | ⟨st, -, -, -, hs⟩
  · exact hi
  · obtain ⟨st, hst, -⟩ := hi.wait_bound hp
    exact hi.setCtl (by simp [hp]) nofun nofun fun _ => ⟨hb, st, hst, (hi.strip_ok st hst).idle_pos, rfl⟩
  · exact hi.endFlush (CmdError.word_produced _).1 (CmdError.word_produced _).2
  · obtain ⟨-, -, -, hgap⟩ := hi.wait_bound hp
    exact hi.setCtl (by simp [hp]) (by simp [hp]) (fun _ => ⟨st, hst, hlt, hgap⟩) (fun h => by simp [hp] at h)
  · obtain ⟨hb, st', hst', hlt, hwait⟩ := hi.gap_bound hp
    obtain rfl : st' = st := Option.some.inj (hst'.symm.trans hst)
    exact hi.setCtl (by simp [hp]) (by simp [hp]) (fun h => by simp [hp] at h)
      (fun _ => ⟨hb, st', hst, by dsimp only; omega, hwait⟩)
  · exact hi.submit hs

/-- Every tick keeps the invariant: the generator's tick, then the controller's (43_transmission.md R160). -/
theorem State.Inv.tick {s t : State} (hi : s.Inv) (h : tick s = .ok t) : t.Inv := by
  obtain ⟨u, hu, ht⟩ := tick_ok h
  exact (hi.channelTick hu).controllerTick ht

/-! ## Every step keeps the invariant -/

/-- Every event keeps the invariant, where the divisor of a strip it latches meets R225's premise. -/
theorem State.Inv.runEvent {s t : State} (hi : s.Inv) {e : Event} (h : runEvent e s = .next t)
    (hfit : ∀ st, s.strip = none → t.strip = some st → countsFit s.params st.div) : t.Inv := by
  rcases runEvent_cases h with ⟨-, ht⟩ | ⟨i, hexec⟩ | ⟨r, v, rfl⟩ | ⟨env, rfl⟩ | ⟨env, rfl⟩ | ⟨-, rfl⟩
  · exact hi.tick ht
  · exact hi.exec hexec hfit
  · exact hi.storeReg r v
  · exact hi.withEnv env
  · exact (hi.withEnv env).recordFault _
  · exact resetEncoder_inv s

/-- Settles O52: a step is one event, on the state with the script after it. -/
theorem stepKeepsTheInvariant : Obligations.StepKeepsTheInvariant := by
  intro s t hi h hfit
  rw [step_eq_runEvent] at h
  exact (hi.setScript _).runEvent h hfit

end Sys2Proof.Machine
end

section
/-! PROOFS. What a command does to a kept strip (10_state.md R35), and the two reads of the window that are 0 beyond the
state: BUF_DATA past the buffer (R31) and the reserved offsets (R33). -/

namespace Sys2Proof.Machine

/-! ## A kept strip -/

/-- A byte outside the bytes written reads as before. -/
theorem Memory.read_writeBytes_of_outside (m : Memory) {a x : Nat} {vs : List Byte} (h : x < a ∨ a + vs.length ≤ x) :
    (m.writeBytes a vs).read x = m.read x := by
  rw [Memory.read_writeBytes]
  split
  · rw [List.getElem?_eq_none (by omega), Option.getD_none]
  · rfl

/-- A byte outside a pixel's bytes reads as before SET_PIXEL wrote it (41_pixel_buffer.md R125). -/
theorem Strip.read_withPixel_of_outside (st : Strip) (color : Word) {index a : Nat}
    (h : a < pixelAddress st index ∨ pixelAddress st index + channelSize st.four ≤ a) :
    (st.withPixel index color).buf.read a = st.buf.read a :=
  Memory.read_writeBytes_of_outside _ (by rwa [length_pixelBytes])

/-- A command whose encoder has a strip before and after it leaves that strip whole, but for a SET_PIXEL's pixel
(R125, R129, R161). -/
theorem exec_strip_cases {s t : State} {i : Instr} {st st' : Strip} (h : exec i s = .next t) (hs : s.strip = some st)
    (ht : t.strip = some st') :
    st' = st ∨ (∃ g, i = .setPixel g) ∧ st' = st.withPixel (indexValue s.regs.index) s.regs.color := by
  have kept (e : t.strip = s.strip) : st' = st := Option.some.inj (ht.symm.trans (e.trans hs))
  by_cases hp : s.ctl.phase = .ready
  · rw [exec_ready hp] at h
    cases h
    cases i with
    | init g =>
      rcases initCommand_cases s with ⟨_, -, hr⟩ | ⟨_, hnone, -⟩
      · exact .inl (kept (congrArg State.strip hr :))
      · simp [hs] at hnone
    | setPixel g =>
      rcases setPixelCommand_cases s with ⟨_, -, hr⟩ | ⟨st₀, hst₀, -, -, hr⟩
      · exact .inl (kept (congrArg State.strip hr :))
      · obtain rfl : st₀ = st := Option.some.inj (hst₀.symm.trans hs)
        exact .inr ⟨⟨g, rfl⟩, Option.some.inj (ht.symm.trans (congrArg State.strip hr :))⟩
    | flush g =>
      rcases flushCommand_cases s with ⟨-, hr⟩ | ⟨-, hr⟩
      · exact .inl (kept (congrArg State.strip hr :))
      · exact .inl (kept (congrArg State.strip hr :))
    | release g =>
      rcases releaseCommand_cases s with ⟨_, -, hr⟩ | ⟨-, -, hr⟩
      · exact .inl (kept (congrArg State.strip hr :))
      · exact absurd (ht.symm.trans (congrArg State.strip hr :)) nofun
    | _ => exact .inl (kept rfl)
  · rw [exec_overlap hp] at h
    cases h
    exact .inl (kept rfl)

/-- Settles O25: a kept strip is the old one, or the old one with one pixel's bytes written by SET_PIXEL. -/
theorem commandMemoryFrame : Obligations.CommandMemoryFrame := by
  intro s t i st st' h hs ht
  rcases exec_strip_cases h hs ht with rfl | ⟨⟨g, rfl⟩, rfl⟩
  · exact ⟨rfl, fun _ => rfl, fun _ _ => rfl⟩
  · exact ⟨rfl, fun hne => absurd rfl (hne g), fun _ ha => st.read_withPixel_of_outside s.regs.color ha⟩

/-! ## Reads of 0 -/

/-- Settles O31: the bound that BUF_DATA checks is the length of the buffer's list of bytes. -/
theorem bufDataReadsTheByte : Obligations.BufDataReadsTheByte := by
  intro s
  refine ⟨fun hs => ?_, fun st hs => ?_⟩
  · simp only [readReg, bufDataWord, hs]
  · simp only [readReg, bufDataWord, hs, Strip.getElem?_bytes]
    split
    · rfl
    · rfl

/-- An address of the window stands at its offset (20_memory.md R61). -/
theorem placeOf_inWindow {offset : Nat} (h : offset < 64) (base nbytes : Nat) :
    placeOf base (base + offset) nbytes = .inWindow offset := by
  unfold placeOf
  rw [if_pos (by omega), if_pos (by omega), Nat.add_sub_cancel_left]

/-- A step on a raw write in the window (20_memory.md R61). -/
theorem step_busWrite {s : State} {offset : Nat} {data : List Byte} {rest : List HostOp}
    (h : s.env.script = .busWrite (s.params.base + offset) data :: rest) (hoff : offset < 64) :
    step s = memWrite offset data (s.setScript rest) := by
  simp only [step, hostStep, h, nextEvent, writeEvent, placeOf_inWindow hoff, runEvent]

/-- A step on a raw read in the window (20_memory.md R61). -/
theorem step_busRead {s : State} {offset nbytes : Nat} {rest : List HostOp}
    (h : s.env.script = .busRead (s.params.base + offset) nbytes :: rest) (hoff : offset < 64) :
    step s = .next (memRead offset nbytes (s.setScript rest)) := by
  simp only [step, hostStep, h, nextEvent, readEvent, placeOf_inWindow hoff, runEvent]

/-- A write at an admitted offset without a register is ignored (10_state.md R33). -/
theorem memWrite_reserved {offset : Nat} {data : List Byte} (ha : admitted offset data.length = true)
    (hr : regAt offset = none) (s : State) : memWrite offset data s = .next s := by
  simp only [memWrite, ha, if_true, hr]

/-- A read at an admitted offset without a register returns 0 (10_state.md R33). -/
theorem memRead_reserved {offset nbytes : Nat} (ha : admitted offset nbytes = true) (hr : regAt offset = none)
    (s : State) : memRead offset nbytes s = s.receive 0#32 := by
  simp only [memRead, ha, if_true, readOffset, hr]

/-- The four reserved offsets are in the window, admitted for four bytes, and have no register (10_state.md R33). -/
theorem reserved_offset {offset : Nat} (h : offset ∈ [0x30, 0x34, 0x38, 0x3C]) :
    offset < 64 ∧ admitted offset 4 = true ∧ regAt offset = none := by
  simp only [List.mem_cons, List.not_mem_nil, or_false] at h
  rcases h with rfl | rfl | rfl | rfl <;> decide

/-- Settles O33: an access there is admitted and meets no register. -/
theorem reservedOffsets : Obligations.ReservedOffsets := by
  intro s offset v rest hmem
  obtain ⟨hoff, ha, hr⟩ := reserved_offset hmem
  refine ⟨fun h => ?_, fun h => ?_⟩
  · rw [step_busWrite h hoff, memWrite_reserved ha hr]
    rfl
  · rw [step_busRead h hoff, memRead_reserved ha hr]
    rfl

end Sys2Proof.Machine
end

section
/-! PROOFS. The host's accesses (20_memory.md R61 to R65): a CMD write runs the command of its word, the register
accesses, raw accesses at a register, accesses that are not admitted, and accesses outside the window. -/

namespace Sys2Proof.Machine

/-! ## A CMD write -/

/-- A word is the one of its own 32 bits. -/
theorem ofNat_toNat_mod (w : Word) : BitVec.ofNat 32 (w.toNat % 2 ^ 32) = w := by
  rw [Nat.mod_eq_of_lt w.isLt, BitVec.ofNat_toNat, BitVec.setWidth_eq]

/-- The table's decoding of a whole word is the decoder's (30_encoding.md R82). -/
theorem decodeTableWord_toNat (w : Word) : decodeTableWord 32 w.toNat = decodeWord w := by
  have hd := decode_wordBytes w []
  rw [List.append_nil] at hd
  rw [decodeTableWord, ofNat_toNat_mod, hd]
  cases decodeWord w <;> rfl

/-- The state that `withFetchWord` makes of a whole word has the CMD write of that word at the head of its script. -/
theorem withFetchWord_toNat (s : State) (w : Word) :
    s.withFetchWord 32 w.toNat = s.setScript (.wr .cmd w :: s.env.script) := by
  rw [State.withFetchWord, withCommandWrite, ofNat_toNat_mod]

/-- A step on a script whose head is a CMD write runs the command (20_memory.md R65). -/
theorem step_wr_cmd {s : State} {w : Word} {i : Instr} {rest : List HostOp} (h : s.env.script = .wr .cmd w :: rest)
    (hd : decodeWord w = some i) : step s = exec i (s.setScript rest) := by
  rw [step_wr h, regOffset, memWrite_cmd, hd]

/-- Settles O6: the CMD write of a word runs the command it decodes to, and `withFetchWord` puts one at the head of the
script. -/
theorem stepRunsTheDecodedCommand : Obligations.StepRunsTheDecodedCommand := by
  refine ⟨fun s w i rest h hd => step_wr_cmd h hd, fun s w i hd => ?_⟩
  rw [decodeTableWord_toNat] at hd
  rw [withFetchWord_toNat]
  exact step_wr_cmd rfl hd

/-! ## The registers -/

/-- A step on a script whose head is a write to a register other than CMD (20_memory.md R65). -/
theorem step_wr_reg {s : State} {r : Reg} {v : Word} {rest : List HostOp} (h : s.env.script = .wr r v :: rest)
    (hr : r ≠ .cmd) : step s = .next (storeReg r v (s.setScript rest)) := by
  rw [step_wr h, memWrite_reg hr]

/-- A store to a read-only register is ignored (20_memory.md R65). -/
theorem storeReg_readOnly {r : Reg} (h : r ∈ [Reg.status, .result, .zeroSym, .oneSym, .bufData, .line]) (v : Word)
    (s : State) : r ≠ .cmd ∧ storeReg r v s = s := by
  cases r with
  | status | result | zeroSym | oneSym | bufData | line => exact ⟨nofun, rfl⟩
  | cmd | cfg | div | index | color | bufAddr => simp at h

/-- Settles O27: a write to a register but CMD is the store to it, and that to a read-only register is ignored. -/
theorem registerWrites : Obligations.RegisterWrites := by
  rintro s u v rest rfl
  refine ⟨fun h => step_wr_reg h nofun, fun h => step_wr_reg h nofun, fun h => step_wr_reg h nofun,
    fun h => step_wr_reg h nofun, fun h => step_wr_reg h nofun, fun r hr h => ?_⟩
  obtain ⟨hcmd, hstore⟩ := storeReg_readOnly hr v (s.setScript rest)
  rw [step_wr_reg h hcmd, hstore]
  rfl

/-- Settles O28: the step is the read of the register, whose value is its definition's. -/
theorem registerReads : Obligations.RegisterReads := fun _ _ _ h =>
  ⟨step_rd h, rfl, rfl, rfl, rfl, rfl, rfl, rfl, rfl⟩

/-! ## Raw accesses -/

/-- Every register is in the window (10_state.md R21). -/
theorem regOffset_lt (r : Reg) : regOffset r < 64 := by cases r <;> decide

/-- Settles O7: both accesses are the one `memWrite`, or the one `memRead`, at the register's offset. -/
theorem rawAccessIsTheRegisterAccess : Obligations.RawAccessIsTheRegisterAccess := by
  intro s r v rest
  refine ⟨fun h => ?_, fun h => ?_⟩
  · have hwr : step (s.setScript (.wr r v :: rest)) = memWrite (regOffset r) (wordBytes v) (s.setScript rest) :=
      step_wr rfl
    exact (step_busWrite h (regOffset_lt r)).trans hwr.symm
  · have hrd : step (s.setScript (.rd r :: rest)) = .next (memRead (regOffset r) 4 (s.setScript rest)) := rfl
    exact (step_busRead h (regOffset_lt r)).trans hrd.symm

/-- An access of another width, or not at a multiple of four, is not admitted (20_memory.md R62). -/
theorem admitted_eq_false {offset nbytes : Nat} (h : nbytes ≠ 4 ∨ offset % 4 ≠ 0) :
    admitted offset nbytes = false := by
  rcases h with h | h
  · simp [admitted, h]
  · simp [admitted, h]

/-- A write that is not admitted is a BUS_ACCESS fault (20_memory.md R62). -/
theorem memWrite_unadmitted {offset : Nat} {data : List Byte} (ha : admitted offset data.length = false) (s : State) :
    memWrite offset data s = .next (recordFault .busAccess s) := by
  simp [memWrite, ha]

/-- A read that is not admitted is a BUS_ACCESS fault and a free value for the host (20_memory.md R62). -/
theorem memRead_unadmitted {offset nbytes : Nat} (ha : admitted offset nbytes = false) (s : State) :
    memRead offset nbytes s = faultedRead s := by
  simp [memRead, ha]

/-- Settles O32: the access stands in the window at an offset where it is not admitted. -/
theorem unadmittedAccessIsAFault : Obligations.UnadmittedAccessIsAFault := by
  intro s address rest hbase htop
  obtain ⟨offset, rfl⟩ := Nat.exists_eq_add_of_le hbase
  have hoff : offset < 64 := by omega
  refine ⟨fun data h hn => ?_, fun nbytes h hn => ?_⟩
  · rw [Nat.add_sub_cancel_left] at hn
    rw [step_busWrite h hoff, memWrite_unadmitted (admitted_eq_false hn)]
    rfl
  · rw [Nat.add_sub_cancel_left] at hn
    rw [step_busRead h hoff, memRead_unadmitted (admitted_eq_false hn)]
    exact ⟨Config.freeRead s.env.draws, rfl⟩

/-- An access at or above the window's end, or wholly below it, is none of the encoder's (20_memory.md R61). -/
theorem placeOf_outside {base address nbytes : Nat}
    (h : base + 64 ≤ address ∨ address + nbytes ≤ base ∧ address < base) :
    placeOf base address nbytes = .elsewhere := by
  unfold placeOf
  rcases h with habove | ⟨hend, hbelow⟩
  · rw [if_pos (by omega), if_neg (by omega)]
  · rw [if_neg (by omega), if_neg (by omega)]

/-- Settles O34: such an access is no event of the encoder. -/
theorem nothingOutsideTheWindowIsDecoded : Obligations.NothingOutsideTheWindowIsDecoded := by
  rintro s address _ data rest hout rfl h
  have hplace := placeOf_outside hout
  rcases h with h | h
  · simp only [step_eq_runEvent, h, nextEvent, writeEvent, hplace, runEvent]
    rfl
  · simp only [step_eq_runEvent, h, nextEvent, readEvent, hplace, runEvent]
    rfl

end Sys2Proof.Machine
end

section
/-! PROOFS. What a step does to the strip record: its latched configuration is fixed (20_memory.md R74), and its buffer
too while a frame is in flight (R72). -/

namespace Sys2Proof.Machine

/-- Only a command or a reset touches the strip; a tick or any other access leaves it (R72, R74). -/
theorem runEvent_strip_cases {e : Event} {s t : State} (h : runEvent e s = .next t) :
    t.strip = s.strip ∨ (∃ i, exec i s = .next t) ∨ (e = .reset ∧ t.strip = none) := by
  rcases runEvent_cases h with ⟨-, ht⟩ | hexec | ⟨r, v, rfl⟩ | ⟨env, rfl⟩ | ⟨env, rfl⟩ | ⟨he, rfl⟩
  · exact .inl (congrArg State.strip (tick_eq ht) :)
  · exact .inr (.inl hexec)
  · exact .inl (congrArg State.strip (storeReg_eq r v s) :)
  · exact .inl rfl
  · exact .inl rfl
  · exact .inr (.inr ⟨he, rfl⟩)

/-- Settles O56: a command keeps a strip but for a pixel's bytes, a reset removes it, and nothing else touches it. -/
theorem latchedConfigurationIsFixed : Obligations.LatchedConfigurationIsFixed := by
  intro s t st st' h hs ht
  rw [step_eq_runEvent] at h
  rcases runEvent_strip_cases h with hkept | ⟨i, hexec⟩ | ⟨-, hnone⟩
  · obtain rfl : st' = st := Option.some.inj (ht.symm.trans (hkept.trans hs))
    rfl
  · rcases exec_strip_cases hexec hs ht with rfl | ⟨-, rfl⟩
    · rfl
    · rfl
  · exact absurd (ht.symm.trans hnone) nofun

/-- While a frame is in flight no command changes the strip: SET_PIXEL and RELEASE are busy, INIT finds it initialised
(41_pixel_buffer.md R121, R127, R130). -/
theorem exec_strip_of_busy {s t : State} {i : Instr} {st : Strip} (h : exec i s = .next t) (hb : s.chan.busy = true)
    (hs : s.strip = some st) : t.strip = s.strip := by
  by_cases hp : s.ctl.phase = .ready
  · rw [exec_ready hp] at h
    cases h
    cases i with
    | init g =>
      rcases initCommand_cases s with ⟨_, -, hr⟩ | ⟨_, hnone, -⟩
      · exact (congrArg State.strip hr :)
      · simp [hs] at hnone
    | setPixel g =>
      rcases setPixelCommand_cases s with ⟨_, -, hr⟩ | ⟨_, -, -, hidle, -⟩
      · exact (congrArg State.strip hr :)
      · simp [hb] at hidle
    | flush g =>
      rcases flushCommand_cases s with ⟨-, hr⟩ | ⟨-, hr⟩
      · exact (congrArg State.strip hr :)
      · exact (congrArg State.strip hr :)
    | release g =>
      rcases releaseCommand_cases s with ⟨_, -, hr⟩ | ⟨-, hidle, -⟩
      · exact (congrArg State.strip hr :)
      · simp [hb] at hidle
    | _ => rfl
  · rw [exec_overlap hp] at h
    cases h
    rfl

/-- Settles O57: of the events that touch a strip, a command leaves it during a frame, and a reset is excluded. -/
theorem bufferIsFixedDuringAFrame : Obligations.BufferIsFixedDuringAFrame := by
  intro s t st hb hs hne h
  rw [step_eq_runEvent] at h
  rcases runEvent_strip_cases h with hkept | ⟨i, hexec⟩ | ⟨hreset, -⟩
  · exact hkept.trans hs
  · exact (exec_strip_of_busy hexec hb hs).trans hs
  · exact absurd hreset hne

end Sys2Proof.Machine
end

section
/-! PROOFS. The decoder and the encoder are inverse (30_encoding.md R80 to R82, R91), and the ignored bits of a command
word change nothing (R81). -/

namespace Sys2Proof.Machine

/-! ## The opcode table -/

/-- Every row of the table tests OP alone (30_encoding.md R81, R82). -/
theorem mask_of_mem_opcodeTable : ∀ row ∈ opcodeTable, row.mask = 0xF#32 := by decide

/-- The row of an opcode: the first one with that pattern (R82). -/
def opcodeRow (op : BitVec 4) : Option OpcodeRow := opcodeTable.find? fun row => decide (row.pattern = op.setWidth 32)

/-- Among rows that test OP alone, decoding takes the first one whose pattern is OP. -/
theorem decodeWordIn_eq_find? {rows : List OpcodeRow} (hmask : ∀ row ∈ rows, row.mask = 0xF#32) (v : Word) :
    decodeWordIn rows v =
      (rows.find? fun row => decide (row.pattern = (v.extractLsb' 0 4).setWidth 32)).map
        fun row => row.make (v.extractLsb' 4 28) := by
  induction rows with
  | nil => rfl
  | cons row rows ih =>
    obtain ⟨hrow, hrows⟩ := List.forall_mem_cons.1 hmask
    rw [decodeWordIn, hrow, and_opcodeMask, List.find?_cons]
    by_cases hp : row.pattern = (v.extractLsb' 0 4).setWidth 32
    · simp [hp]
    · simp [hp, Ne.symm hp, ih hrows]

/-- Decoding a word is taking the row of its OP and making its command of the other bits (R81, R82). -/
theorem decodeWord_eq (v : Word) :
    decodeWord v = (opcodeRow (v.extractLsb' 0 4)).map fun row => row.make (v.extractLsb' 4 28) :=
  decodeWordIn_eq_find? mask_of_mem_opcodeTable v

/-- The row of a command's opcode makes that command of its ignored bits. -/
theorem map_make_opcodeRow (i : Instr) : (opcodeRow i.opcode).map (fun row => row.make i.ignoredBits) = some i := by
  cases i <;> rfl

/-- Decoding a command's word gives the command back (R82). -/
theorem decodeWord_encode (i : Instr) : decodeWord (encode i) = some i := by
  obtain ⟨hop, hign⟩ := Laws.encode_fields i
  rw [decodeWord_eq, hop, hign, map_make_opcodeRow]

/-- Settles O1: the bytes make the command's word again, and its word decodes to the command. -/
theorem decodeOfEncodeIsTheCommand : Obligations.DecodeOfEncodeIsTheCommand := by
  intro i rest
  rw [encodeBytes, decode_wordBytes, decodeWord_encode]

/-! ## Every word is a command's -/

/-- The encoder agrees with the table: a row's command has the row's pattern as its opcode (R82), and the ignored bits
it was made with. -/
theorem make_fields : ∀ row ∈ opcodeTable, ∀ g,
    (row.make g).opcode.setWidth 32 = row.pattern ∧ (row.make g).ignoredBits = g := by
  simp [opcodeTable, Instr.opcode, Instr.ignoredBits]

/-- An opcode is known from the word that has it alone. -/
theorem opcode_eq_of_setWidth_eq {op op' : BitVec 4} (h : op.setWidth 32 = op'.setWidth 32) : op = op' := by
  simpa using congrArg (BitVec.setWidth 4) h

/-- Every opcode with any ignored bits is a command (R82, R91). -/
theorem exists_instr (op : BitVec 4) (g : BitVec 28) : ∃ i : Instr, i.opcode = op ∧ i.ignoredBits = g := by
  obtain ⟨row, hrow, -, hpat⟩ := exists_row_of_opcode op
  obtain ⟨hop, hign⟩ := make_fields row hrow g
  exact ⟨row.make g, opcode_eq_of_setWidth_eq (hop.trans hpat), hign⟩

/-- Every word is the encoding of a command (R82, R91). -/
theorem exists_encode_eq (v : Word) : ∃ i, encode i = v := by
  obtain ⟨i, hop, hign⟩ := exists_instr (v.extractLsb' 0 4) (v.extractLsb' 4 28)
  refine ⟨i, ?_⟩
  rw [encode, hop, hign]
  exact (BitVec.extractLsb'_append_extractLsb'_eq_extractLsb' rfl).trans BitVec.extractLsb'_eq_self

/-- Four bytes are the bytes of their word (20_memory.md R63). -/
theorem wordBytes_wordOfBytes (b0 b1 b2 b3 : Byte) : wordBytes (wordOfBytes b0 b1 b2 b3) = [b0, b1, b2, b3] := by
  simp only [wordBytes, wordOfBytes, BitVec.extractLsb'_append_eq_right, BitVec.extractLsb'_append_eq_left,
    BitVec.extractLsb'_append_eq_of_le, Nat.reduceLeDiff, Nat.reduceSub]

/-- Settles O2: the four bytes are a word, which is some command's, and that command decodes back. -/
theorem everyWordIsOneCommand : Obligations.EveryWordIsOneCommand := by
  intro b0 b1 b2 b3 rest
  obtain ⟨i, hi⟩ := exists_encode_eq (wordOfBytes b0 b1 b2 b3)
  have hbytes : encodeBytes i = [b0, b1, b2, b3] := by rw [encodeBytes, hi, wordBytes_wordOfBytes]
  have hdecode := decodeOfEncodeIsTheCommand i rest
  rw [hbytes] at hdecode
  exact ⟨i, hdecode, hbytes⟩

/-! ## The ignored bits -/

/-- The rule a row's command runs does not depend on the ignored bits (30_encoding.md R81). -/
theorem commandRule_make : ∀ row ∈ opcodeTable, ∀ g g', commandRule (row.make g) = commandRule (row.make g') := by
  simp [opcodeTable, commandRule]

/-- Settles O4: words with the same OP take the same row of the table, whose commands run one rule. -/
theorem ignoredBitsDoNotChangeTheCommand : Obligations.IgnoredBitsDoNotChangeTheCommand := by
  intro v w i j hmask hi hj s
  have hop : v.extractLsb' 0 4 = w.extractLsb' 0 4 := by
    rw [and_opcodeMask, and_opcodeMask] at hmask
    exact opcode_eq_of_setWidth_eq hmask
  rw [decodeWord_eq, Option.map_eq_some_iff] at hi hj
  obtain ⟨row, hrow, rfl⟩ := hi
  obtain ⟨row', hrow', rfl⟩ := hj
  obtain rfl : row = row' := Option.some.inj (hrow.symm.trans (hop ▸ hrow'))
  rw [exec_eq_issue, exec_eq_issue, commandRule_make row (List.mem_of_find?_eq_some hrow)]

/-! ## The spec's examples -/

/-- Settles O3: each of the five words is evaluated. -/
theorem commandWordExamplesDecode : Obligations.CommandWordExamplesDecode := by
  unfold Obligations.CommandWordExamplesDecode
  decide

end Sys2Proof.Machine
end

section
/-! PROOFS. The words packed from fields: CFGWORD (30_encoding.md R84), the symbol word (R88), the STATUS word (R89)
and SETPX's colour word (R85). -/

namespace Sys2Proof.Machine

/-! ## Words packed from fields -/

/-- A field of a word as a number. -/
theorem toNat_field (v : Word) (k n : Nat) : (v.extractLsb' k n).toNat = v.toNat / 2 ^ k % 2 ^ n := by
  rw [BitVec.extractLsb'_toNat, Nat.shiftRight_eq_div_pow]

/-- A field of one bit as a flag. -/
theorem getLsbD_field {v : Word} {k : Nat} {b : Bool} (h : v.toNat / 2 ^ k % 2 = b.toNat) : v.getLsbD k = b := by
  rw [← BitVec.testBit_toNat, Nat.testBit_eq_decide_div_mod_eq, h]
  cases b <;> rfl

/-- A field put above the bits of a word adds its multiple of `2 ^ k`. -/
theorem toNat_or_shiftLeft {v : Word} {x k : Nat} (hv : v.toNat < 2 ^ k) (hx : x * 2 ^ k < 2 ^ 32) :
    (v ||| BitVec.ofNat 32 x <<< k).toNat = v.toNat + x * 2 ^ k := by
  have hx' : x < 2 ^ 32 := lt_of_le_of_lt (Nat.le_mul_of_pos_right x (Nat.two_pow_pos k)) hx
  rw [BitVec.toNat_or, BitVec.toNat_shiftLeft, BitVec.toNat_ofNat, Nat.mod_eq_of_lt hx', Nat.shiftLeft_eq,
    Nat.mod_eq_of_lt hx, ← Nat.shiftLeft_eq, Nat.lor_comm, ← Nat.shiftLeft_add_eq_or_of_lt hv, Nat.add_comm]

/-- A word of four fields, each below the place of the next, is the sum of their multiples. -/
theorem toNat_fourFields {x0 x1 x2 x3 k1 k2 k3 : Nat} (h1 : x0 < 2 ^ k1) (h2 : x0 + x1 * 2 ^ k1 < 2 ^ k2)
    (h3 : x0 + x1 * 2 ^ k1 + x2 * 2 ^ k2 < 2 ^ k3)
    (h : x0 + x1 * 2 ^ k1 + x2 * 2 ^ k2 + x3 * 2 ^ k3 < 2 ^ 32) :
    (BitVec.ofNat 32 x0 ||| BitVec.ofNat 32 x1 <<< k1 ||| BitVec.ofNat 32 x2 <<< k2 |||
      BitVec.ofNat 32 x3 <<< k3).toNat = x0 + x1 * 2 ^ k1 + x2 * 2 ^ k2 + x3 * 2 ^ k3 := by
  have e0 : (BitVec.ofNat 32 x0).toNat = x0 := Nat.mod_eq_of_lt (by omega)
  have e1 : (BitVec.ofNat 32 x0 ||| BitVec.ofNat 32 x1 <<< k1).toNat = x0 + x1 * 2 ^ k1 := by
    rw [toNat_or_shiftLeft (by rwa [e0]) (by omega), e0]
  have e2 : (BitVec.ofNat 32 x0 ||| BitVec.ofNat 32 x1 <<< k1 ||| BitVec.ofNat 32 x2 <<< k2).toNat =
      x0 + x1 * 2 ^ k1 + x2 * 2 ^ k2 := by
    rw [toNat_or_shiftLeft (by rwa [e1]) (by omega), e1]
  rw [toNat_or_shiftLeft (by rwa [e2]) (by omega), e2]

/-- A flag's bit is the word of its number. -/
theorem flagBit_eq_ofNat (b : Bool) : flagBit b = BitVec.ofNat 32 b.toNat := by cases b <;> rfl

/-! ## The CFGWORD -/

/-- The bits of a well-formed CFGWORD (30_encoding.md R84, R94). -/
theorem toNat_cfgWord {c : CfgWord} (hdev : c.dev < 2 ^ 3) (hfour : c.four < 2 ^ 1) (hgpio : c.gpio < 2 ^ 8)
    (hcount : c.count < 2 ^ 16) :
    (cfgWord c).toNat = c.dev + c.four * 2 ^ 3 + c.gpio * 2 ^ 8 + c.count * 2 ^ 16 :=
  toNat_fourFields hdev (by omega) (by omega) (by omega)

/-- The reserved bits of CFG are bits 7:4 (10_state.md R23). -/
theorem and_cfgReserved (v : Word) : v &&& ~~~cfgMask = (v.extractLsb' 4 4).setWidth 32 <<< 4 := by
  have hmask : ~~~cfgMask = (BitVec.allOnes 4).setWidth 32 <<< 4 := by decide
  apply BitVec.eq_of_getLsbD_eq
  intro i hi
  simp only [hmask, BitVec.getLsbD_and, BitVec.getLsbD_shiftLeft, BitVec.getLsbD_setWidth, BitVec.getLsbD_allOnes,
    BitVec.getLsbD_extractLsb']
  grind

/-- Settles O5: the word is the sum of its operands at their places, so each field is its operand and bits 7:4 are 0. -/
theorem cfgWordFieldsAreItsOperands : Obligations.CfgWordFieldsAreItsOperands := by
  intro c h
  simp only [CfgWord.wellFormed, Bool.and_eq_true, decide_eq_true_eq] at h
  obtain ⟨⟨⟨hdev, hfour⟩, hgpio⟩, hcount⟩ := h
  have hw := toNat_cfgWord hdev hfour hgpio hcount
  have hflag : (decide (c.four = 1)).toNat = c.four := by
    rcases (by omega : c.four = 0 ∨ c.four = 1) with h0 | h1
    · rw [h0]
      rfl
    · rw [h1]
      rfl
  refine ⟨?_, getLsbD_field ?_, ?_, ?_, ?_⟩
  · rw [cfgDev, toNat_field]
    omega
  · omega
  · rw [cfgGpio, toNat_field]
    omega
  · rw [cfgCount, toNat_field]
    omega
  · have hreserved : (cfgWord c).extractLsb' 4 4 = 0#4 := by
      apply BitVec.eq_of_toNat_eq
      rw [toNat_field, BitVec.toNat_ofNat]
      omega
    rw [and_cfgReserved, hreserved]
    rfl

/-! ## The symbol word -/

/-- The bits of a symbol's word, where both durations fit their fields (30_encoding.md R88). -/
theorem toNat_symbolWord {y : Symbol} (hA : y.durationA ≤ 32767) (hB : y.durationB ≤ 32767) :
    (symbolWord y).toNat =
      y.durationA + y.levelA.toNat * 2 ^ 15 + y.durationB * 2 ^ 16 + y.levelB.toNat * 2 ^ 31 := by
  have hlA := y.levelA.toNat_le
  have hlB := y.levelB.toNat_le
  rw [symbolWord, flagBit_eq_ofNat, flagBit_eq_ofNat]
  exact toNat_fourFields (by omega) (by omega) (by omega) (by omega)

/-- The four fields of a symbol's word (R88). -/
theorem symbolWord_fields {y : Symbol} (hA : y.durationA ≤ 32767) (hB : y.durationB ≤ 32767) :
    ((symbolWord y).extractLsb' 0 15).toNat = y.durationA ∧ (symbolWord y).getLsbD 15 = y.levelA ∧
      ((symbolWord y).extractLsb' 16 15).toNat = y.durationB ∧ (symbolWord y).getLsbD 31 = y.levelB := by
  have hw := toNat_symbolWord hA hB
  have hlA := y.levelA.toNat_le
  have hlB := y.levelB.toNat_le
  refine ⟨?_, getLsbD_field ?_, ?_, getLsbD_field ?_⟩
  · rw [toNat_field]
    omega
  · omega
  · rw [toNat_field]
    omega
  · omega

/-- Settles O30: with a strip each of the two registers is the word of its symbol. -/
theorem symbolRegisterFields : Obligations.SymbolRegisterFields := by
  refine ⟨fun s hs => by simp only [readReg, hs, Option.map_none, Option.getD_none, and_self], ?_⟩
  intro s st r y hs hr hA hB
  have hread : readReg r s = symbolWord y := by
    simp only [List.mem_cons, Prod.mk.injEq, List.not_mem_nil, or_false] at hr
    rcases hr with ⟨rfl, rfl⟩ | ⟨rfl, rfl⟩
    · simp only [readReg, hs, Option.map_some, Option.getD_some]
    · simp only [readReg, hs, Option.map_some, Option.getD_some]
  rw [hread]
  exact symbolWord_fields hA hB

/-! ## The STATUS word -/

/-- A phase's code fits the two bits of STATUS.PHASE (R27). -/
theorem toNat_phaseCode_le (p : Phase) : (phaseCode p).toNat ≤ 2 := by cases p <;> decide

/-- The bits of the STATUS word (10_state.md R27). -/
theorem toNat_statusWord (s : State) :
    (statusWord s).toNat = s.strip.isSome.toNat + s.chan.busy.toNat * 2 ^ 1 +
      (decide (s.ctl.phase ≠ .ready)).toNat * 2 ^ 2 + (phaseCode s.ctl.phase).toNat * 2 ^ 4 := by
  have hinit := s.strip.isSome.toNat_le
  have htx := s.chan.busy.toNat_le
  have hcmd := (decide (s.ctl.phase ≠ .ready)).toNat_le
  have hphase := toNat_phaseCode_le s.ctl.phase
  have h := toNat_fourFields (x0 := s.strip.isSome.toNat) (x1 := s.chan.busy.toNat)
    (x2 := (decide (s.ctl.phase ≠ .ready)).toNat) (x3 := (phaseCode s.ctl.phase).toNat) (k1 := 1) (k2 := 2) (k3 := 4)
    (by omega) (by omega) (by omega) (by omega)
  rwa [← flagBit_eq_ofNat, ← flagBit_eq_ofNat, ← flagBit_eq_ofNat, BitVec.ofNat_toNat, BitVec.setWidth_eq] at h

/-- The fields of the STATUS word (R27, R89). -/
theorem statusWord_fields (s : State) :
    (statusWord s).getLsbD 0 = s.strip.isSome ∧ (statusWord s).getLsbD 1 = s.chan.busy ∧
      (statusWord s).getLsbD 2 = decide (s.ctl.phase ≠ .ready) ∧ (statusWord s).getLsbD 3 = false ∧
      ((statusWord s).extractLsb' 4 2).toNat = (phaseCode s.ctl.phase).toNat ∧
      (statusWord s).extractLsb' 6 26 = 0#26 := by
  have hw := toNat_statusWord s
  have hinit := s.strip.isSome.toNat_le
  have htx := s.chan.busy.toNat_le
  have hcmd := (decide (s.ctl.phase ≠ .ready)).toNat_le
  have hphase := toNat_phaseCode_le s.ctl.phase
  refine ⟨getLsbD_field ?_, getLsbD_field ?_, getLsbD_field ?_, getLsbD_field ?_, ?_, BitVec.eq_of_toNat_eq ?_⟩
  · omega
  · omega
  · omega
  · rw [Bool.toNat_false]
    omega
  · rw [toNat_field]
    omega
  · rw [toNat_field, BitVec.toNat_ofNat]
    omega

/-- The STATUS word by what it is made of. -/
theorem statusWord_eq {s : State} {init tx : Bool} {p : Phase} (hinit : s.strip.isSome = init) (htx : s.chan.busy = tx)
    (hp : s.ctl.phase = p) :
    statusWord s =
      flagBit init ||| flagBit tx <<< 1 ||| flagBit (decide (p ≠ .ready)) <<< 2 ||| phaseCode p <<< 4 := by
  subst hinit htx hp
  rfl

/-- The STATUS words of the states that meet the invariant (R89). -/
theorem State.Inv.statusWord_mem {s : State} (hi : s.Inv) :
    statusWord s ∈ [0x00#32, 0x01#32, 0x03#32, 0x15#32, 0x17#32, 0x25#32] := by
  have hsome : s.ctl.phase ≠ .ready ∨ s.chan.busy = true → s.strip.isSome = true := by
    rintro (hp | hb)
    · obtain ⟨st, hst⟩ := hi.strip_of_not_ready hp
      simp [hst]
    · obtain ⟨st, hst, -⟩ := hi.busy_playing hb
      simp [hst]
  cases hp : s.ctl.phase with
  | ready =>
    cases hb : s.chan.busy with
    | true =>
      rw [statusWord_eq (hsome (.inr hb)) hb hp]
      decide
    | false =>
      cases hst : s.strip.isSome with
      | true => rw [statusWord_eq hst hb hp]; decide
      | false => rw [statusWord_eq hst hb hp]; decide
  | waitDone =>
    have hst := hsome (.inl (by simp [hp]))
    cases hb : s.chan.busy with
    | true => rw [statusWord_eq hst hb hp]; decide
    | false => rw [statusWord_eq hst hb hp]; decide
  | idleGap =>
    have hst := hsome (.inl (by simp [hp]))
    rw [statusWord_eq hst (hi.gap_bound hp).1 hp]
    decide

/-- Settles O29: the fields of the word in any state, and its values where the invariant gives a strip to every other
phase and to every frame. -/
theorem statusFieldsAndValues : Obligations.StatusFieldsAndValues := by
  intro s
  obtain ⟨hinit, htx, hcmd, hzero, hphase, hrest⟩ := statusWord_fields s
  refine ⟨⟨hinit, htx, hcmd, hzero, BitVec.eq_of_toNat_eq (hphase.trans ?_), hrest⟩, State.Inv.statusWord_mem⟩
  cases s.ctl.phase <;> rfl

/-! ## SETPX's colour word -/

/-- The bits of SETPX's colour word (30_encoding.md R85, R94). -/
theorem toNat_colorWord {r g b w : Nat} (hr : r < 2 ^ 8) (hg : g < 2 ^ 8) (hb : b < 2 ^ 8) (hw : w < 2 ^ 8) :
    (colorWord r g b w).toNat = r + g * 2 ^ 8 + b * 2 ^ 16 + w * 2 ^ 24 :=
  toNat_fourFields hr (by omega) (by omega) (by omega)

/-- The four channels of SETPX's colour word (R85). -/
theorem colorWord_fields {r g b w : Nat} (hr : r < 2 ^ 8) (hg : g < 2 ^ 8) (hb : b < 2 ^ 8) (hw : w < 2 ^ 8) :
    (colorR (colorWord r g b w)).toNat = r ∧ (colorG (colorWord r g b w)).toNat = g ∧
      (colorB (colorWord r g b w)).toNat = b ∧ (colorW (colorWord r g b w)).toNat = w := by
  have hword := toNat_colorWord hr hg hb hw
  rw [colorR, colorG, colorB, colorW, toNat_field, toNat_field, toNat_field, toNat_field, hword]
  omega

end Sys2Proof.Machine
end

section
/-! PROOFS. The items of the host's script (30_encoding.md R93, R94): the three accesses of SETPX, a POLL, and TICKS,
for which a tick does not depend on the script. -/

namespace Sys2Proof.Machine

/-! ## Runs -/

/-- A run whose first step goes on is the rest of the run from there. -/
theorem run_succ {s t : State} (h : step s = .next t) (k : Nat) :
    Sys2Proof.core.run (k + 1) s = Sys2Proof.core.run k t := by
  have hcore : Sys2Proof.core.step s = .next t := h
  simp only [Host.Core.run, hcore]

/-- A run of one step is that step. -/
theorem run_one (s : State) : Sys2Proof.core.run 1 s = step s := by
  have hcore : Sys2Proof.core.step s = step s := rfl
  simp only [Host.Core.run, hcore]
  cases step s <;> rfl

/-! ## SETPX -/

/-- Settles O11: the writes of INDEX and COLOR are two steps, and the third runs SET_PIXEL on the fields of the words
they wrote. -/
theorem setpxRunsSetPixelOnItsOperands : Obligations.SetpxRunsSetPixelOnItsOperands := by
  intro s index r g b w rest hwf hscript
  simp only [Pseudo.wellFormed, Bool.and_eq_true, decide_eq_true_eq] at hwf
  obtain ⟨⟨⟨⟨hindex, hr⟩, hg⟩, hb⟩, hw⟩ := hwf
  refine ⟨((s.setIndex (BitVec.ofNat 32 index)).setColor (colorWord r g b w)).setScript rest, ?_, rfl,
    Nat.mod_eq_of_lt hindex, colorWord_fields hr hg hb hw⟩
  rw [run_succ (step_wr_reg hscript nofun), run_succ (step_wr_reg (r := .color) rfl nofun), run_one]
  exact step_wr_cmd rfl (decodeWord_encode (.setPixel 0#28))

/-! ## POLL -/

/-- A step on a script whose head is a POLL (30_encoding.md R93). -/
theorem step_poll {s : State} {r : Reg} {mask value : Word} {rest : List HostOp}
    (h : s.env.script = .poll r mask value :: rest) : step s = .next (pollRead r mask value (s.setScript rest)) := by
  simp only [step, hostStep, h, nextEvent, runEvent]

/-- Settles O10: the step is one read, done or followed by ticks and the POLL again. -/
theorem pollRepeatsUntilTheValue : Obligations.PollRepeatsUntilTheValue := by
  intro s r mask value rest h
  rw [step_poll h, pollRead, readReg_setScript]
  refine ⟨fun hdone => ?_, fun hmore => ⟨Config.pollGap s.env.draws, ?_⟩⟩
  · rw [if_pos hdone]
    rfl
  · rw [if_neg hmore]
    rfl

/-! ## Ticks do not depend on the script -/

section
variable (l : List HostOp) (s : State)

theorem setChan_setScript (c : Chan) : (s.setScript l).setChan c = (s.setChan c).setScript l := rfl
theorem setCtl_setScript (c : Ctl) : (s.setScript l).setCtl c = (s.setCtl c).setScript l := rfl
theorem drive_setScript (v : Level) : (s.setScript l).drive v = (s.drive v).setScript l := rfl
theorem noteQuestion_setScript (q : ChanQuestion) :
    noteQuestion q (s.setScript l) = (noteQuestion q s).setScript l := rfl

theorem refill_setScript : refill (s.setScript l) = (refill s).map (State.setScript l) := by
  simp only [refill, setScript_strip]
  cases s.strip <;> rfl

theorem startHead_setScript : startHead (s.setScript l) = (startHead s).setScript l := by
  simp only [startHead, setScript_chan]
  cases s.chan.mem <;> rfl

theorem finishSymbol_setScript (rest : List Symbol) :
    finishSymbol rest (s.setScript l) = (finishSymbol rest s).map (State.setScript l) := by
  cases rest with
  | cons y ys => exact congrArg Except.ok (startHead_setScript l (s.setChan { s.chan with mem := y :: ys }))
  | nil =>
    simp only [finishSymbol, setScript_chan, setChan_setScript, refill_setScript]
    cases refill (s.setChan { s.chan with mem := [] }) with
    | error f => rfl
    | ok t => exact congrArg Except.ok (startHead_setScript l t)

theorem playTick_setScript (y : Symbol) (rest : List Symbol) :
    playTick y rest (s.setScript l) = (playTick y rest s).map (State.setScript l) := by
  simp only [playTick, setScript_chan, setChan_setScript]
  split
  · rfl
  · split
    · rfl
    · exact finishSymbol_setScript l _ rest
  · rfl

theorem channelTick_setScript : channelTick (s.setScript l) = (channelTick s).map (State.setScript l) := by
  cases hb : s.chan.busy with
  | false =>
    simp only [channelTick, setScript_chan, hb, Bool.false_eq_true, if_false]
    rfl
  | true =>
    simp only [channelTick, setScript_chan, hb, if_true, drive_setScript]
    cases s.chan.mem with
    | nil => rfl
    | cons y ys => exact playTick_setScript l _ y ys

theorem startFrame_setScript : startFrame (s.setScript l) = (startFrame s).map (State.setScript l) := by
  simp only [startFrame, setScript_strip, setScript_params]
  cases s.strip with
  | none => rfl
  | some st =>
    simp only
    split <;> rfl

theorem submit_setScript (st : Strip) : submit st (s.setScript l) = (submit st s).map (State.setScript l) := by
  have hv : verdictFor (.submit st.bufLen) (s.setScript l) = verdictFor (.submit st.bufLen) s := rfl
  simp only [submit, hv, noteQuestion_setScript, startFrame_setScript]
  cases verdictFor (.submit st.bufLen) s with
  | refuse => rfl
  | accept => cases startFrame (noteQuestion (.submit st.bufLen) s) <;> rfl

theorem waitTick_setScript : waitTick (s.setScript l) = (waitTick s).map (State.setScript l) := by
  cases hb : s.chan.busy with
  | false =>
    simp only [waitTick, setScript_chan, hb, if_true]
    rfl
  | true =>
    simp only [waitTick, setScript_chan, hb, Bool.true_eq_false, if_false, setScript_strip]
    cases s.strip with
    | none => rfl
    | some st =>
      by_cases hout : st.timeoutTicks ≤ s.ctl.waitCnt + 1
      · simp only [setScript_ctl, hout, if_true]
        rfl
      · simp only [setScript_ctl, hout, if_false]
        rfl

theorem gapTick_setScript : gapTick (s.setScript l) = (gapTick s).map (State.setScript l) := by
  simp only [gapTick, setScript_strip]
  cases s.strip with
  | none => rfl
  | some st =>
    by_cases hlast : s.ctl.gapCnt + 1 = st.idleTicks
    · simp only [setScript_ctl, hlast, if_true, setCtl_setScript, submit_setScript]
    · simp only [setScript_ctl, hlast, if_false]
      rfl

theorem controllerTick_setScript :
    controllerTick (s.setScript l) = (controllerTick s).map (State.setScript l) := by
  simp only [controllerTick, setScript_ctl]
  cases s.ctl.phase with
  | ready => rfl
  | waitDone => exact waitTick_setScript l s
  | idleGap => exact gapTick_setScript l s

/-- A tick on another script is the tick, with that script kept (43_transmission.md R160). -/
theorem tick_setScript : tick (s.setScript l) = (tick s).map (State.setScript l) := by
  simp only [tick, channelTick_setScript]
  cases channelTick s with
  | error f => rfl
  | ok t => exact controllerTick_setScript l t

/-- Ticks on another script are the ticks, with that script kept. -/
theorem tickN_setScript (n : Nat) : tickN n (s.setScript l) = (tickN n s).map (State.setScript l) := by
  induction n generalizing s with
  | zero => rfl
  | succ n ih =>
    simp only [tickN, tick_setScript]
    cases tick s with
    | error f => rfl
    | ok t => exact ih t

end

/-! ## TICKS -/

/-- A step on a script whose head is TICKS ticks, and leaves one tick less (30_encoding.md R93). -/
theorem step_ticks {s t : State} {n : Nat} {rest : List HostOp} (h : s.env.script = .ticks (n + 2) :: rest)
    (ht : tick s = .ok t) : step s = .next (t.setScript (.ticks (n + 1) :: rest)) := by
  simp only [step, hostStep, h, nextEvent, runEvent, tick_setScript, ht, Except.map]

/-- The last tick of a TICKS leaves the items after it. -/
theorem step_ticks_one {s t : State} {rest : List HostOp} (h : s.env.script = .ticks 1 :: rest)
    (ht : tick s = .ok t) : step s = .next (t.setScript rest) := by
  simp only [step, hostStep, h, nextEvent, runEvent, tick_setScript, ht, Except.map]

/-- Ticks that go on are a first tick and the rest. -/
theorem tickN_succ {n : Nat} {s t : State} (h : tickN (n + 1) s = .ok t) :
    ∃ u, tick s = .ok u ∧ tickN n u = .ok t := by
  rw [tickN] at h
  split at h
  · rename_i u hu
    exact ⟨u, hu, h⟩
  · cases h

/-- Settles O9, by induction on the number of ticks: each step is one of them, and a tick does not depend on the
script. -/
theorem ticksItemIsThatManyTicks : Obligations.TicksItemIsThatManyTicks := by
  intro s t n rest hscript hticks
  induction n generalizing s t with
  | zero =>
    obtain ⟨u, hu, ht⟩ := tickN_succ hticks
    cases ht
    exact run_succ (step_ticks_one hscript hu) 0
  | succ n ih =>
    obtain ⟨u, hu, ht⟩ := tickN_succ hticks
    have hrest : tickN (n + 1) (u.setScript (.ticks (n + 1) :: rest)) = .ok (t.setScript (.ticks (n + 1) :: rest)) := by
      rw [tickN_setScript, ht]
      rfl
    rw [run_succ (step_ticks hscript hu)]
    exact (ih _ _ rfl hrest :)

end Sys2Proof.Machine
end

section
/-! PROOFS. The length of a frame on the line, and the rounding of the compiled tick counts
(40_symbol_compiler.md R105, R109 to R113). -/

namespace Sys2Proof.Machine

/-! ## The length of a frame -/

/-- A symbol occupies the line for its two durations (R104). -/
@[simp] theorem length_symbolWave (y : Symbol) : (symbolWave y).length = symbolTicks y := by
  simp [symbolWave, symbolTicks]

/-- The symbols of a buffer are those of its bits, in the bits' order (42_translator.md R144, R149). -/
theorem expandBytes_eq_map_bits (zs os : Symbol) (bytes : List Byte) :
    expandBytes zs os bytes = (bytes.flatMap byteBits).map (bitSymbol zs os) :=
  List.map_flatMap.symm

/-- A buffer has eight bits for each byte. -/
theorem length_flatMap_byteBits (bytes : List Byte) : (bytes.flatMap byteBits).length = 8 * bytes.length := by
  simp [List.length_flatMap, Nat.mul_comm]

/-- The ticks of a list of bits: T0 for each 0 bit and T1 for each 1 bit (R113). -/
theorem length_waveOfBits (zs os : Symbol) (bits : List Bool) :
    ((bits.map (bitSymbol zs os)).flatMap symbolWave).length =
      bits.count false * symbolTicks zs + bits.count true * symbolTicks os := by
  induction bits with
  | nil => simp
  | cons bit bits ih =>
    rw [List.map_cons, List.flatMap_cons, List.length_append, length_symbolWave, ih]
    cases bit with
    | false =>
      have hsym : bitSymbol zs os false = zs := rfl
      rw [hsym, List.count_cons_self, List.count_cons_of_ne (by decide)]
      ring
    | true =>
      have hsym : bitSymbol zs os true = os := rfl
      rw [hsym, List.count_cons_self, List.count_cons_of_ne (by decide)]
      ring

/-- The 0 bits of a buffer are the bits that are not 1: `Z = 8 * len(buf) - O` (R113). -/
theorem count_false_bits (bytes : List Byte) :
    (bytes.flatMap byteBits).count false = 8 * bytes.length - onesIn bytes := by
  have h := List.count_false_add_count_true (bytes.flatMap byteBits)
  rw [length_flatMap_byteBits] at h
  exact Nat.eq_sub_of_add_eq h

/-- Settles O38: a frame is the waves of its bits, of which `O` are 1 and the others 0. -/
theorem frameDuration : Obligations.FrameDuration := by
  intro st
  rw [frameWave, expandBytes_eq_map_bits, length_waveOfBits, count_false_bits, Strip.length_bytes, onesIn]

/-! ## Rounding -/

theorem nsPerSecond_eq : nsPerSecond = 10 ^ 9 := by decide

/-- A divisor of at least 1 gives a tick of positive length, as both roundings need (R105, R110, R111). -/
theorem mul_nsPerSecond_pos {d : Nat} (hd : 1 ≤ d) : 0 < d * nsPerSecond := Nat.mul_pos hd (by decide)

/-- `round_div` is within half a divisor of its dividend, and takes a tie upward (00_scope.md R10). -/
theorem roundDiv_nearest (a : Nat) {b : Nat} (hb : 0 < b) :
    2 * roundDiv a b * b ≤ 2 * a + b ∧ 2 * a < (2 * roundDiv a b + 1) * b := by
  have hle : roundDiv a b * (2 * b) ≤ 2 * a + b := Nat.div_mul_le_self _ _
  have hlt : 2 * a + b < (roundDiv a b + 1) * (2 * b) := Nat.lt_mul_of_div_lt (Nat.lt_succ_self _) (by omega)
  constructor <;> linarith

/-- `ceil_div` reaches its dividend and passes it by less than the divisor (00_scope.md R10). -/
theorem ceilDiv_roundsUp (a : Nat) {b : Nat} (hb : 0 < b) :
    a ≤ ceilDiv a b * b ∧ ceilDiv a b * b < a + b := by
  have hle : ceilDiv a b * b ≤ a + b - 1 := Nat.div_mul_le_self _ _
  have hlt : a + b - 1 < (ceilDiv a b + 1) * b := Nat.lt_mul_of_div_lt (Nat.lt_succ_self _) hb
  rw [Nat.add_one_mul] at hlt
  omega

/-- Settles O35: a compiled duration is `round_div` of the exact one. -/
theorem ticksAreNearest : Obligations.TicksAreNearest := by
  intro w f d hd
  rw [← nsPerSecond_eq]
  exact roundDiv_nearest (w * f) (mul_nsPerSecond_pos hd)

/-- Settles O36: both counts are `ceil_div` of positive nanoseconds. -/
theorem waitCountsAreRoundedUp : Obligations.WaitCountsAreRoundedUp := by
  intro p d hd
  have htick := mul_nsPerSecond_pos hd
  rw [← nsPerSecond_eq]
  exact ⟨⟨ceilDiv_pos (Nat.mul_pos p.idle_pos p.fTimer_pos) htick, ceilDiv_roundsUp _ htick⟩,
    ceilDiv_pos (Nat.mul_pos p.timeout_pos p.fTimer_pos) htick, ceilDiv_roundsUp _ htick⟩

end Sys2Proof.Machine
end

section
/-! PROOFS. The pixel buffer commands (41_pixel_buffer.md R121 to R131): how INIT ends, what SET_PIXEL writes, what
RELEASE removes, the reserved opcodes, and the frame of every command. -/

namespace Sys2Proof.Machine

/-! ## INIT -/

/-- INIT on an uninitialised encoder whose checks pass asks the channel (R121). -/
theorem initCommand_of_checked {s : State} {prof : Profile} (hs : s.strip = none)
    (h : InitChecked s.params prof s.regs.cfg s.regs.div) :
    initCommand s = initBind (initStrip s.params prof s.regs.cfg s.regs.div) s := by
  obtain ⟨hprofile, hcount, hdivisor, hsymbols, hcapacity⟩ := h
  have hsym : symOk (compileSymbols prof s.params.fTimer (divDivisor s.regs.div)).1
      (compileSymbols prof s.params.fTimer (divDivisor s.regs.div)).2 ≠ false := fun hno =>
    Bool.false_ne_true (hno.symm.trans hsymbols)
  have hfits : ¬ s.params.bufCapacity < cfgCount s.regs.cfg * channelSize (cfgFour s.regs.cfg) :=
    Nat.not_lt.2 hcapacity
  simp only [initCommand, hs, hprofile, initWithProfile, if_neg hcount, if_neg hdivisor, if_neg hsym, if_neg hfits]

/-- How INIT ends: with an error, and then only RESULT and the model's record of the oracle can differ, or, on an
uninitialised encoder, with the strip record latched and the channel asked once (R121, R124). -/
theorem initCommand_ends (s : State) :
    (∃ env v, initCommand s = { s with regs := { s.regs with result := v }, env := env } ∧
      env.script = s.env.script ∧ env.received = s.env.received) ∨
    (∃ prof, s.strip = none ∧ initCommand s = complete ((noteQuestion
      (.configure (cfgGpio s.regs.cfg) (divDivisor s.regs.div)) s).setStrip
        (some (initStrip s.params prof s.regs.cfg s.regs.div)))) := by
  rcases initCommand_cases s with ⟨e, -, hr⟩ | ⟨prof, hs, -, hr⟩
  · exact .inl ⟨s.env, e.word, hr, rfl, rfl⟩
  · cases hv : verdictFor (.configure (cfgGpio s.regs.cfg) (divDivisor s.regs.div)) s with
    | accept => exact .inr ⟨prof, hs, hr.trans (initBind_accept hv)⟩
    | refuse => exact .inl ⟨_, _, hr.trans (initBind_refuse hv), rfl, rfl⟩

/-- A buffer without a listed cell is zero bytes (R123). -/
theorem Strip.bytes_of_buf_nil {st : Strip} (h : st.buf = []) : st.bytes = List.replicate st.bufLen 0#8 := by
  rw [Strip.bytes, h, List.eq_replicate_iff]
  simp [Memory.unlisted]

/-- Settles O12: its hypotheses are INIT's checks, and the channel accepts. -/
theorem initLatchesTheStripAndCompletes : Obligations.InitLatchesTheStripAndCompletes := by
  intro s ignored prof z o hp hs hprofile hcount hdivisor hcompile hsymbols hcapacity haccept
  have hz : (compileSymbols prof s.params.fTimer (divDivisor s.regs.div)).1 = z := congrArg Prod.fst hcompile
  have ho : (compileSymbols prof s.params.fTimer (divDivisor s.regs.div)).2 = o := congrArg Prod.snd hcompile
  subst hz ho
  have hchecked : InitChecked s.params prof s.regs.cfg s.regs.div :=
    ⟨hprofile, hcount, hdivisor, hsymbols, hcapacity⟩
  rw [exec_ready hp]
  exact congrArg Host.Outcome.next ((initCommand_of_checked hs hchecked).trans (initBind_accept haccept))

/-- Settles O13: INIT is the only way from no strip to one, and the record it latches lists no cell. -/
theorem initBufferIsZero : Obligations.InitBufferIsZero := by
  intro s t ignored st h hs ht
  by_cases hp : s.ctl.phase = .ready
  · rw [exec_ready hp] at h
    cases h
    rcases initCommand_ends s with ⟨_, _, hr, -⟩ | ⟨prof, -, hr⟩
    · exact absurd ((ht.symm.trans (congrArg State.strip hr :)).trans hs) nofun
    · obtain rfl : st = initStrip s.params prof s.regs.cfg s.regs.div :=
        Option.some.inj (ht.symm.trans (congrArg State.strip hr :))
      exact Strip.bytes_of_buf_nil rfl
  · rw [exec_overlap hp] at h
    cases h
    exact absurd (ht.symm.trans hs) nofun

/-- Settles O15: the one ending of INIT that latches a strip has RESULT 0. -/
theorem initIsAllOrNothing : Obligations.InitIsAllOrNothing := by
  intro s t ignored hp h hne
  rw [exec_ready hp] at h
  cases h
  rcases initCommand_ends s with ⟨env, v, hr, -⟩ | ⟨prof, -, hr⟩
  · simp only [commandRule, hr]
  · exact absurd (congrArg (fun u => u.regs.result) hr :) hne

/-! ## SET_PIXEL -/

theorem setPixelCommand_notInit {s : State} (hs : s.strip = none) : setPixelCommand s = raise .notInit s := by
  simp only [setPixelCommand, hs]

theorem setPixelCommand_indexRange {s : State} {st : Strip} (hs : s.strip = some st)
    (hi : st.count ≤ indexValue s.regs.index) : setPixelCommand s = raise .indexRange s := by
  simp only [setPixelCommand, hs, if_pos hi]

theorem setPixelCommand_busy {s : State} {st : Strip} (hs : s.strip = some st)
    (hi : indexValue s.regs.index < st.count) (hb : s.chan.busy = true) : setPixelCommand s = raise .busy s := by
  simp only [setPixelCommand, hs, if_neg (Nat.not_le.2 hi), if_pos hb]

theorem setPixelCommand_writes {s : State} {st : Strip} (hs : s.strip = some st)
    (hi : indexValue s.regs.index < st.count) (hb : s.chan.busy = false) :
    setPixelCommand s = complete (s.setStrip (some (st.withPixel (indexValue s.regs.index) s.regs.color))) := by
  simp only [setPixelCommand, hs, if_neg (Nat.not_le.2 hi), hb, Bool.false_eq_true, if_false]

/-- Settles O18: each clause is one error of SET_PIXEL's rule. -/
theorem setPixelErrorsInOrder : Obligations.SetPixelErrorsInOrder := by
  intro s ignored hp
  rw [exec_ready hp]
  refine ⟨fun hs => ?_, fun st hs hi => ?_, fun st hs hi hb => ?_⟩
  · exact congrArg Host.Outcome.next (setPixelCommand_notInit hs)
  · exact congrArg Host.Outcome.next (setPixelCommand_indexRange hs hi)
  · exact congrArg Host.Outcome.next (setPixelCommand_busy hs hi hb)

/-- The bytes of a pixel after SET_PIXEL: those it writes (R125). -/
theorem Strip.read_withPixel_of_inside (st : Strip) (index : Nat) (color : Word) {k : Nat}
    (hk : k < channelSize st.four) :
    (pixelBytes st color)[k]? = some ((st.withPixel index color).buf.read (pixelAddress st index + k)) := by
  have hlen : k < (pixelBytes st color).length := by rwa [length_pixelBytes]
  rw [Strip.withPixel, Memory.read_writeBytes, if_pos (Nat.le_add_right _ _), Nat.add_sub_cancel_left,
    List.getElem?_eq_getElem hlen, Option.getD_some]

/-- Settles O16: SET_PIXEL writes the packed colour, whose bytes R120's table lists. -/
theorem setPixelWritesThePixelOnly : Obligations.SetPixelWritesThePixelOnly := by
  intro s ignored st hp hs hi hb
  refine ⟨(st.withPixel s.regs.index.toNat s.regs.color).buf, ?_, fun k hk => ?_,
    fun a ha => st.read_withPixel_of_outside s.regs.color ha⟩
  · rw [exec_ready hp]
    exact congrArg Host.Outcome.next (setPixelCommand_writes hs hi hb)
  · rw [← st.read_withPixel_of_inside _ s.regs.color hk, pixelBytes]
    cases st.order <;> cases st.four <;> rfl

/-- The buffer after SET_PIXEL, as a list: one pixel's slice replaced (R125, 20_memory.md R67). -/
theorem Strip.bytes_withPixel {st : Strip} {index : Nat} (hi : index < st.count) (color : Word) :
    (st.withPixel index color).bytes =
      st.bytes.take (pixelAddress st index) ++ pixelBytes st color ++
        st.bytes.drop (pixelAddress st index + channelSize st.four) := by
  have hle := pixelAddress_le hi
  have hlen : (st.withPixel index color).bufLen = st.bufLen := rfl
  have htake : (st.bytes.take (pixelAddress st index)).length = pixelAddress st index := by
    rw [List.length_take, Strip.length_bytes]
    omega
  refine List.ext_getElem? fun a => ?_
  rw [Strip.getElem?_bytes, hlen, List.append_assoc]
  by_cases hbefore : a < pixelAddress st index
  · rw [List.getElem?_append_left (by omega), List.getElem?_take_of_lt hbefore, Strip.getElem?_bytes,
      st.read_withPixel_of_outside color (.inl hbefore)]
  · obtain ⟨k, rfl⟩ := Nat.exists_eq_add_of_le (Nat.not_lt.1 hbefore)
    rw [List.getElem?_append_right (by omega), htake, Nat.add_sub_cancel_left]
    by_cases hinside : k < channelSize st.four
    · rw [List.getElem?_append_left (by rwa [length_pixelBytes]), st.read_withPixel_of_inside index color hinside,
        if_pos (by omega)]
    · have hk : pixelAddress st index + channelSize st.four + (k - channelSize st.four) =
          pixelAddress st index + k := by omega
      rw [List.getElem?_append_right (by rw [length_pixelBytes]; omega), length_pixelBytes, List.getElem?_drop, hk,
        Strip.getElem?_bytes, st.read_withPixel_of_outside color (.inr (by omega))]

/-- Settles O17: SET_PIXEL latches the strip with one pixel written. -/
theorem setPixelReplacesOneSlice : Obligations.SetPixelReplacesOneSlice := by
  intro s t ignored st hp hs hi hb h
  rw [exec_ready hp] at h
  cases h
  exact ⟨_, (congrArg State.strip (setPixelCommand_writes hs hi hb) :), Strip.bytes_withPixel hi s.regs.color⟩

/-- A byte of a colour within bits 23:0 is kept by their mask (30_encoding.md R85). -/
theorem extractLsb'_and_low24 (v : Word) {k : Nat} (hk : (0x00FFFFFF#32).extractLsb' k 8 = BitVec.allOnes 8) :
    (v &&& 0x00FFFFFF#32).extractLsb' k 8 = v.extractLsb' k 8 := by
  rw [BitVec.extractLsb'_and, hk, BitVec.and_allOnes]

/-- A pixel of a three-channel strip is made of bits 23:0 of COLOR (R128). -/
theorem pixelBytes_and_low24 {st : Strip} (hfour : st.four = false) (v : Word) :
    pixelBytes st (v &&& 0x00FFFFFF#32) = pixelBytes st v := by
  have hr : colorR (v &&& 0x00FFFFFF#32) = colorR v := extractLsb'_and_low24 v (by decide)
  have hg : colorG (v &&& 0x00FFFFFF#32) = colorG v := extractLsb'_and_low24 v (by decide)
  have hb : colorB (v &&& 0x00FFFFFF#32) = colorB v := extractLsb'_and_low24 v (by decide)
  simp only [pixelBytes, pack, hfour, hr, hg, hb, Bool.false_eq_true, if_false]

/-- SET_PIXEL uses COLOR in the bytes it writes alone: with another colour of the same bytes its rule does the same,
and COLOR stays as it was (R125). -/
theorem setPixelCommand_setColor {s : State} {st : Strip} {v : Word} (hs : s.strip = some st)
    (hv : pixelBytes st v = pixelBytes st s.regs.color) :
    setPixelCommand (s.setColor v) = (setPixelCommand s).setColor v := by
  by_cases hi : indexValue s.regs.index < st.count
  · cases hb : s.chan.busy with
    | true =>
      rw [setPixelCommand_busy hs hi hb]
      exact setPixelCommand_busy hs hi hb
    | false =>
      have hpixel : st.withPixel (indexValue s.regs.index) v = st.withPixel (indexValue s.regs.index) s.regs.color := by
        rw [Strip.withPixel, Strip.withPixel, hv]
      rw [setPixelCommand_writes hs hi hb, ← hpixel]
      exact setPixelCommand_writes (s := s.setColor v) hs hi hb
  · rw [setPixelCommand_indexRange hs (Nat.not_lt.1 hi)]
    exact setPixelCommand_indexRange hs (Nat.not_lt.1 hi)

/-- Settles O19: the two colours pack to the same three bytes. -/
theorem whiteIsDroppedOnThreeChannels : Obligations.WhiteIsDroppedOnThreeChannels := by
  intro s t u ignored st white hs hfour hlow ht hu
  have hv : pixelBytes st white = pixelBytes st s.regs.color := by
    rw [← pixelBytes_and_low24 hfour white, hlow, pixelBytes_and_low24 hfour]
  change exec (.setPixel ignored) (s.setColor white) = .next u at hu
  by_cases hp : s.ctl.phase = .ready
  · rw [exec_ready hp] at ht
    rw [exec_ready (s := s.setColor white) hp] at hu
    cases ht
    cases hu
    have hsame : commandRule (.setPixel ignored) (s.setColor white) = (setPixelCommand s).setColor white :=
      setPixelCommand_setColor hs hv
    rw [hsame]
    exact ⟨rfl, rfl⟩
  · rw [exec_overlap hp] at ht
    rw [exec_overlap (s := s.setColor white) hp] at hu
    cases ht
    cases hu
    exact ⟨rfl, rfl⟩

/-! ## RELEASE -/

theorem releaseCommand_notInit {s : State} (hs : s.strip = none) : releaseCommand s = raise .notInit s := by
  simp only [releaseCommand, hs]

theorem releaseCommand_busy {s : State} (hs : s.strip ≠ none) (hb : s.chan.busy = true) :
    releaseCommand s = raise .busy s := by
  obtain ⟨st, hst⟩ := Option.ne_none_iff_exists'.1 hs
  simp only [releaseCommand, hst, if_pos hb]

theorem releaseCommand_removes {s : State} (hs : s.strip ≠ none) (hb : s.chan.busy = false) :
    releaseCommand s = complete (s.setStrip none) := by
  obtain ⟨st, hst⟩ := Option.ne_none_iff_exists'.1 hs
  simp only [releaseCommand, hst, hb, Bool.false_eq_true, if_false]

/-- Settles O21: each clause is one end of RELEASE's rule, and the four registers read the absent strip. -/
theorem releaseRemovesTheStrip : Obligations.ReleaseRemovesTheStrip := by
  intro s ignored hp
  rw [exec_ready hp]
  refine ⟨fun hs => ?_, fun hs hb => ?_, fun hs hb => ?_⟩
  · exact congrArg Host.Outcome.next (releaseCommand_notInit hs)
  · exact congrArg Host.Outcome.next (releaseCommand_busy hs hb)
  · obtain ⟨hinit, -⟩ := statusWord_fields (complete (s.setStrip none))
    exact ⟨_, congrArg Host.Outcome.next (releaseCommand_removes hs hb), rfl, hinit, rfl, rfl, rfl⟩

/-! ## The reserved opcodes -/

/-- The rule of each reserved command (R131). -/
theorem commandRule_of_mem_reservedCommands {i : Instr} {g : BitVec 28} (h : i ∈ reservedCommands g) :
    commandRule i = reservedCommand := by
  have hall : ∀ j ∈ reservedCommands g, commandRule j = reservedCommand := by
    simp only [reservedCommands, List.forall_mem_cons, List.not_mem_nil, false_imp_iff, implies_true,
      commandRule, and_self]
  exact hall i h

/-- Settles O22: each reserved command raises RESERVED_OP. -/
theorem reservedOpcodesReportReservedOp : Obligations.ReservedOpcodesReportReservedOp := by
  intro s g i hmem hp
  rw [exec_ready hp, commandRule_of_mem_reservedCommands hmem]
  rfl

/-! ## Every command -/

/-- All that a command's rule can write: the strip, RESULT, the controller where it is FLUSH, the model's record of the
oracle where it is INIT (R121, R125, R130, R131, 43_transmission.md R161). -/
theorem commandRule_writes (i : Instr) (s : State) :
    ∃ (strip : Option Strip) (v : Word) (ctl : Ctl) (env : Env),
      commandRule i s = { s with regs := { s.regs with result := v }, strip := strip, ctl := ctl, env := env } ∧
      ((∀ g, i ≠ .flush g) → ctl = s.ctl) ∧ ((∀ g, i ≠ .init g) → env = s.env) ∧
      env.script = s.env.script ∧ env.received = s.env.received := by
  cases i with
  | init g =>
    rcases initCommand_ends s with ⟨env, v, hr, hscript, hreceived⟩ | ⟨prof, -, hr⟩
    · exact ⟨s.strip, v, s.ctl, env, hr, fun _ => rfl, fun h => absurd rfl (h g), hscript, hreceived⟩
    · exact ⟨_, _, _, _, hr, fun _ => rfl, fun h => absurd rfl (h g), rfl, rfl⟩
  | setPixel g =>
    rcases setPixelCommand_cases s with ⟨e, -, hr⟩ | ⟨st, -, -, -, hr⟩
    · exact ⟨s.strip, e.word, s.ctl, s.env, hr, fun _ => rfl, fun _ => rfl, rfl, rfl⟩
    · exact ⟨_, _, _, _, hr, fun _ => rfl, fun _ => rfl, rfl, rfl⟩
  | flush g =>
    rcases flushCommand_cases s with ⟨-, hr⟩ | ⟨-, hr⟩
    · exact ⟨_, _, _, _, hr, fun _ => rfl, fun _ => rfl, rfl, rfl⟩
    · exact ⟨_, _, _, _, hr, fun h => absurd rfl (h g), fun _ => rfl, rfl, rfl⟩
  | release g =>
    rcases releaseCommand_cases s with ⟨e, -, hr⟩ | ⟨-, -, hr⟩
    · exact ⟨_, _, _, _, hr, fun _ => rfl, fun _ => rfl, rfl, rfl⟩
    · exact ⟨_, _, _, _, hr, fun _ => rfl, fun _ => rfl, rfl, rfl⟩
  | _ => exact ⟨s.strip, CmdError.reservedOp.word, s.ctl, s.env, rfl, fun _ => rfl, fun _ => rfl, rfl, rfl⟩

/-- Settles O24: in READY a command writes what its rule can, in any other phase the fault set alone. -/
theorem commandFrame : Obligations.CommandFrame := by
  intro s i
  by_cases hp : s.ctl.phase = .ready
  · obtain ⟨strip, v, ctl, env, hr, hctl, henv, hscript, hreceived⟩ := commandRule_writes i s
    exact ⟨_, (exec_ready hp i).trans (congrArg Host.Outcome.next hr), rfl, rfl, rfl, rfl, rfl, hscript, hreceived,
      hctl, henv, fun _ => rfl⟩
  · exact ⟨_, exec_overlap hp i, rfl, rfl, rfl, rfl, rfl, rfl, rfl, fun _ => rfl, fun _ => rfl,
      fun h => absurd h hp⟩

end Sys2Proof.Machine
end

section
/-! PROOFS. The translator (42_translator.md): what one call takes and emits, the fills of a frame one after another,
and the round trip from bytes to symbols and back (R142, R144, R149, R150). -/

namespace Sys2Proof.Machine

/-! ## One call of translate -/

/-- Settles O39: the count of bytes consumed is the smaller of the two bounds, and the symbols are theirs. -/
theorem translateTakesWholeBytes : Obligations.TranslateTakesWholeBytes := by
  intro bytes maxSymbols zs os syms n h
  obtain ⟨rfl, rfl⟩ := Prod.mk.inj ((translate_eq bytes maxSymbols zs os).symm.trans h)
  refine ⟨?_, by omega, by omega, by omega, rfl⟩
  rw [length_expandBytes, List.length_take]
  omega

/-! ## The fills of a frame -/

@[simp] theorem expandBytes_nil (zs os : Symbol) : expandBytes zs os [] = [] := rfl

theorem expandBytes_cons (zs os : Symbol) (b : Byte) (bytes : List Byte) :
    expandBytes zs os (b :: bytes) = byteSymbols zs os b ++ expandBytes zs os bytes := List.flatMap_cons

/-- Only the empty list of bytes has no symbols. -/
theorem expandBytes_ne_nil (zs os : Symbol) {bytes : List Byte} (h : bytes ≠ []) : expandBytes zs os bytes ≠ [] := by
  have hpos := List.length_pos_iff.2 h
  rw [← List.length_pos_iff, length_expandBytes]
  omega

/-- The next fill: where bytes are left, it is the symbols of as many of them as fit, and the fills after it are those
of the bytes after these (R146, R147). -/
theorem fills_succ {capacity : Nat} (hcap : 8 ≤ capacity) (zs os : Symbol) (fuel : Nat) {bytes : List Byte}
    (h : bytes ≠ []) :
    fills capacity zs os (fuel + 1) bytes =
      expandBytes zs os (bytes.take (min bytes.length (capacity / 8))) ::
        fills capacity zs os fuel (bytes.drop (min bytes.length (capacity / 8))) := by
  have htake : bytes.take (min bytes.length (capacity / 8)) ≠ [] := by
    have hpos := List.length_pos_iff.2 h
    rw [← List.length_pos_iff, List.length_take]
    omega
  obtain ⟨y, ys, hy⟩ := List.exists_cons_of_ne_nil (expandBytes_ne_nil zs os htake)
  rw [fills, translate_eq, hy]

theorem fills_nil (capacity : Nat) (zs os : Symbol) (fuel : Nat) : fills capacity zs os fuel [] = [] := by
  cases fuel with
  | zero => rfl
  | succ fuel => simp only [fills, translate_eq, List.take_nil, expandBytes_nil]

/-- With fuel for every byte the fills, one after another, are the symbols of all the bytes (R149). -/
theorem flatten_fills {capacity : Nat} (hcap : 8 ≤ capacity) (zs os : Symbol) {fuel : Nat} {bytes : List Byte}
    (hfuel : bytes.length ≤ fuel) : (fills capacity zs os fuel bytes).flatten = expandBytes zs os bytes := by
  induction fuel generalizing bytes with
  | zero =>
    obtain rfl := List.eq_nil_of_length_eq_zero (Nat.le_zero.1 hfuel)
    rfl
  | succ fuel ih =>
    by_cases hb : bytes = []
    · rw [hb, fills_nil, expandBytes_nil, List.flatten_nil]
    · have hpos := List.length_pos_iff.2 hb
      have hrest : (bytes.drop (min bytes.length (capacity / 8))).length ≤ fuel := by
        rw [List.length_drop]
        omega
      rw [fills_succ hcap zs os fuel hb, List.flatten_cons, ih hrest, ← expandBytes_append, List.take_append_drop]

/-- One fill less for the first `min L n` bytes of `L`, where each fill takes up to `n` (R150). -/
theorem ceilDiv_sub_min {L n : Nat} (hL : 0 < L) (hn : 0 < n) : ceilDiv (L - min L n) n + 1 = ceilDiv L n := by
  simp only [ceilDiv]
  rcases Nat.le_total L n with hle | hle
  · have hone : L + n - 1 = L - 1 + n := by omega
    rw [Nat.min_eq_left hle, Nat.sub_self, Nat.zero_add, Nat.div_eq_of_lt (by omega), hone, Nat.add_div_right _ hn,
      Nat.div_eq_of_lt (by omega)]
  · have hstep : L + n - 1 = L - n + n - 1 + n := by omega
    rw [Nat.min_eq_right hle, hstep, Nat.add_div_right _ hn]

/-- The number of fills, with fuel for every byte (R150). -/
theorem length_fills {capacity : Nat} (hcap : 8 ≤ capacity) (zs os : Symbol) {fuel : Nat} {bytes : List Byte}
    (hfuel : bytes.length ≤ fuel) : (fills capacity zs os fuel bytes).length = ceilDiv bytes.length (capacity / 8) := by
  have hn : 0 < capacity / 8 := by omega
  have hzero : ceilDiv 0 (capacity / 8) = 0 := Nat.div_eq_of_lt (by omega)
  induction fuel generalizing bytes with
  | zero => rw [Nat.le_zero.1 hfuel, hzero, fills, List.length_nil]
  | succ fuel ih =>
    by_cases hb : bytes = []
    · rw [hb, fills_nil, List.length_nil, List.length_nil, hzero]
    · have hpos := List.length_pos_iff.2 hb
      have hrest : (bytes.drop (min bytes.length (capacity / 8))).length ≤ fuel := by
        rw [List.length_drop]
        omega
      rw [fills_succ hcap zs os fuel hb, List.length_cons, ih hrest, List.length_drop, ceilDiv_sub_min hpos hn]

/-- Settles O40: `bytes.length` is fuel enough, as every fill takes a byte. -/
theorem fillsMakeUpTheFrame : Obligations.FillsMakeUpTheFrame := fun _ zs os _ hcap =>
  ⟨flatten_fills hcap zs os le_rfl, length_fills hcap zs os le_rfl⟩

/-! ## Reading symbols back -/

/-- Eight bits, the first as bit 7, make up the byte they are the bits of (R144). -/
theorem byteOfBits_byteBits (b : Byte) : byteOfBits (byteBits b) = b := by
  revert b
  decide

/-- Where the two symbols differ, a symbol tells its bit (R149). -/
theorem decide_bitSymbol_eq {zs os : Symbol} (h : zs ≠ os) (bit : Bool) : decide (bitSymbol zs os bit = os) = bit := by
  cases bit with
  | false => exact decide_eq_false h
  | true => exact decide_eq_true rfl

/-- The first eight symbols read back to their byte. -/
theorem readBack_byteSymbols_append {zs os : Symbol} (h : zs ≠ os) (b : Byte) (rest : List Symbol) :
    readBack os (byteSymbols zs os b ++ rest) = b :: readBack os rest := by
  have hbits : ((byteSymbols zs os b).map fun y => decide (y = os)) = byteBits b := by
    rw [byteSymbols, List.map_map]
    exact (List.map_congr_left fun bit _ => decide_bitSymbol_eq h bit).trans (List.map_id _)
  have hread : readBack os (byteSymbols zs os b ++ rest) =
      byteOfBits ((byteSymbols zs os b).map fun y => decide (y = os)) :: readBack os rest := rfl
  rw [hread, hbits, byteOfBits_byteBits]

/-- Settles O41, by induction on the bytes. -/
theorem symbolsReadBackToTheBytes : Obligations.SymbolsReadBackToTheBytes := by
  intro zs os bytes h
  refine ⟨?_, length_expandBytes zs os bytes⟩
  induction bytes with
  | nil => rfl
  | cons b bytes ih => rw [expandBytes_cons, readBack_byteSymbols_append h, ih]

end Sys2Proof.Machine
end

section
/-! PROOFS. A frame on the line: what a generator has left to send, one tick of it, and the whole of it with the
controller in READY or in a FLUSH's wait (43_transmission.md R160, R163, R169 to R172, 42_translator.md R148). -/

namespace Sys2Proof.Machine

/-! ## A strip's symbols -/

/-- Both segments of a strip's symbols take ticks (40_symbol_compiler.md R107). -/
theorem StripOk.durations_pos {p : Params} {st : Strip} (hok : StripOk p st) {y : Symbol}
    (hy : y = st.zeroSym ∨ y = st.oneSym) : 1 ≤ y.durationA ∧ 1 ≤ y.durationB := by
  obtain ⟨hzA, hzB, hoA, hoB⟩ := symOk_pos hok.symbols
  rcases hy with rfl | rfl
  · exact ⟨hzA, hzB⟩
  · exact ⟨hoA, hoB⟩

/-- A strip's symbols end low (40_symbol_compiler.md R103). -/
theorem StripOk.levelB_low {p : Params} {st : Strip} (hok : StripOk p st) {y : Symbol}
    (hy : y = st.zeroSym ∨ y = st.oneSym) : y.levelB = false := by
  obtain ⟨-, -, hz, ho⟩ := hok.levels
  rcases hy with rfl | rfl
  · exact hz
  · exact ho

/-- The last level of a legal strip's frame is low. -/
theorem getLastD_frameWave {p : Params} {st : Strip} (hok : StripOk p st) (l : Level) :
    (frameWave st).getLastD l = false := by
  have hbytes : st.bytes ≠ [] := by
    have hpos := hok.bufLen_pos
    rw [← List.length_pos_iff, Strip.length_bytes]
    omega
  obtain ⟨ys, y, hys⟩ := (List.eq_nil_or_concat _).resolve_left (expandBytes_ne_nil st.zeroSym st.oneSym hbytes)
  have hy : y = st.zeroSym ∨ y = st.oneSym := mem_expandBytes (bytes := st.bytes) (by simp [hys])
  obtain ⟨-, hB⟩ := hok.durations_pos hy
  obtain ⟨r, hr⟩ := Nat.exists_eq_add_of_le' hB
  rw [frameWave, hys, List.concat_eq_append, List.flatMap_append, List.flatMap_singleton, symbolWave, hr,
    hok.levelB_low hy, List.replicate_succ', ← List.append_assoc, ← List.append_assoc, List.getLastD_concat]

/-! ## What a generator has left to send -/

/-- The levels still to come after the head symbol, with the symbols `ys` behind it in the pulse memory and the buffer
to be loaded from `offset` on (R171, 42_translator.md R147). -/
def waveAfter (st : Strip) (ys : List Symbol) (offset : Nat) : List Level :=
  (ys ++ expandBytes st.zeroSym st.oneSym (st.bytes.drop offset)).flatMap symbolWave

theorem waveAfter_cons (st : Strip) (y : Symbol) (ys : List Symbol) (offset : Nat) :
    waveAfter st (y :: ys) offset =
      List.replicate y.durationA y.levelA ++ (List.replicate y.durationB y.levelB ++ waveAfter st ys offset) := by
  rw [waveAfter, List.cons_append, List.flatMap_cons, symbolWave, List.append_assoc, waveAfter]

/-- A fill only moves symbols from the buffer to the pulse memory: how the buffer is cut is invisible on the line
(42_translator.md R148). -/
theorem waveAfter_fillFrom (p : Params) (st : Strip) (offset : Nat) :
    waveAfter st (fillFrom p st offset).1 (offset + (fillFrom p st offset).2) = waveAfter st [] offset := by
  rw [waveAfter, fillFrom_fst, ← expandBytes_append, ← List.drop_drop, List.take_append_drop, waveAfter,
    List.nil_append]

/-- The waveform generator has exactly the levels `w` of a frame of `st` left to send, one on each of its next ticks:
none when it is idle; else the rest of the head symbol's current segment, its segment B where that is still to come,
and the levels after the head symbol (R169, R171). -/
inductive Sends (st : Strip) : Chan → List Level → Prop where
  | over : Sends st Chan.idle []
  | inA {y : Symbol} {ys : List Symbol} {offset r : Nat} (hsym : ∀ x ∈ y :: ys, x = st.zeroSym ∨ x = st.oneSym) :
    Sends st ⟨true, y :: ys, offset, .a, r + 1⟩
      (y.levelA :: (List.replicate r y.levelA ++ (List.replicate y.durationB y.levelB ++ waveAfter st ys offset)))
  | inB {y : Symbol} {ys : List Symbol} {offset r : Nat} (hsym : ∀ x ∈ y :: ys, x = st.zeroSym ∨ x = st.oneSym) :
    Sends st ⟨true, y :: ys, offset, .b, r + 1⟩ (y.levelB :: (List.replicate r y.levelB ++ waveAfter st ys offset))

theorem Sends.busy {st : Strip} {c : Chan} {l : Level} {w : List Level} (h : Sends st c (l :: w)) : c.busy = true := by
  cases h <;> rfl

theorem Sends.idle {st : Strip} {c : Chan} (h : Sends st c []) : c = Chan.idle := by
  cases h
  rfl

/-- A head symbol at its first tick is still to be sent whole. -/
theorem sends_head {p : Params} {st : Strip} (hok : StripOk p st) {y : Symbol} {ys : List Symbol}
    (hsym : ∀ x ∈ y :: ys, x = st.zeroSym ∨ x = st.oneSym) (offset : Nat) :
    Sends st ⟨true, y :: ys, offset, .a, y.durationA⟩ (waveAfter st (y :: ys) offset) := by
  obtain ⟨hA, -⟩ := hok.durations_pos (hsym y List.mem_cons_self)
  obtain ⟨r, hr⟩ := Nat.exists_eq_add_of_le' hA
  rw [waveAfter_cons, hr]
  exact .inA hsym

/-- A frame that starts has its whole waveform to send (42_translator.md R146). -/
theorem sends_startFrame {s u : State} {st : Strip} (hst : s.strip = some st) (hok : StripOk s.params st)
    (h : startFrame s = .ok u) : ∃ c, u = s.setChan c ∧ Sends st c (frameWave st) := by
  obtain ⟨st', y, ys, hst', hfill, rfl⟩ := startFrame_ok h
  obtain rfl : st = st' := Option.some.inj (hst.symm.trans hst')
  have hwave : frameWave st = waveAfter st (y :: ys) (fillFrom s.params st 0).2 := by
    have hfirst := waveAfter_fillFrom s.params st 0
    rw [hfill, Nat.zero_add] at hfirst
    exact hfirst.symm
  rw [hwave]
  exact ⟨_, rfl, sends_head hok (fun x hx => mem_fillFrom (hfill ▸ hx)) _⟩

/-! ## One tick of the generator -/

/-- The end of a head symbol leaves the levels after it to send, whether the next symbol stands in the pulse memory, is
loaded by a refill, or does not exist and the frame is over (R169, R170, 42_translator.md R147). -/
theorem finishSymbol_sends {s : State} {st : Strip} (hst : s.strip = some st) (hok : StripOk s.params st)
    (hb : s.chan.busy = true) {ys : List Symbol} (hsym : ∀ x ∈ ys, x = st.zeroSym ∨ x = st.oneSym) :
    ∃ c, finishSymbol ys s = .ok (s.setChan c) ∧ Sends st c (waveAfter st ys s.chan.offset) := by
  cases ys with
  | cons y ys =>
    refine ⟨_, rfl, ?_⟩
    simp only [setChan_chan, hb]
    exact sends_head hok hsym _
  | nil =>
    rw [← waveAfter_fillFrom s.params st]
    cases hfill : (fillFrom s.params st s.chan.offset).1 with
    | nil =>
      have hover : finishSymbol [] s = .ok (s.setChan Chan.idle) := by
        simp only [finishSymbol, refill, setChan_strip, hst, setChan_params, setChan_chan, hfill]
        rfl
      have hleft : waveAfter st [] (s.chan.offset + (fillFrom s.params st s.chan.offset).2) = [] := by
        have hend := (fillFrom_nil s.params st s.chan.offset).1 hfill
        rw [waveAfter, List.drop_eq_nil_of_le (by rw [Strip.length_bytes]; omega)]
        rfl
      rw [hleft]
      exact ⟨_, hover, .over⟩
    | cons y ys =>
      have hloaded : finishSymbol [] s = .ok (s.setChan
          ⟨true, y :: ys, s.chan.offset + (fillFrom s.params st s.chan.offset).2, .a, y.durationA⟩) := by
        simp only [finishSymbol, refill, setChan_strip, hst, setChan_params, setChan_chan, hfill, ← hb]
        rfl
      exact ⟨_, hloaded, sends_head hok (fun x hx => mem_fillFrom (hfill ▸ hx)) _⟩

/-- The generator's tick on a known head symbol. -/
theorem channelTick_head {s : State} {y : Symbol} {ys : List Symbol} {offset r : Nat} {seg : Seg}
    (hc : s.chan = ⟨true, y :: ys, offset, seg, r⟩) :
    channelTick s = playTick y ys (s.drive (segmentLevel seg y)) := by
  simp only [channelTick, hc, if_pos]

/-- A tick of the generator drives the first of the levels it has left to send, and leaves the others to send. -/
theorem channelTick_sends {s : State} {st : Strip} (hst : s.strip = some st) (hok : StripOk s.params st) {l : Level}
    {w : List Level} (h : Sends st s.chan (l :: w)) :
    ∃ c, channelTick s = .ok ((s.drive l).setChan c) ∧ Sends st c w := by
  generalize hc : s.chan = c at h
  cases h with
  | @inA y ys offset r hsym =>
    rw [channelTick_head hc]
    cases r with
    | zero =>
      obtain ⟨-, hB⟩ := hok.durations_pos (hsym y List.mem_cons_self)
      obtain ⟨r, hr⟩ := Nat.exists_eq_add_of_le' hB
      refine ⟨⟨true, y :: ys, offset, .b, y.durationB⟩, ?_, ?_⟩
      · simp only [playTick, drive_chan, hc]
        rfl
      · rw [hr]
        exact .inB hsym
    | succ r =>
      refine ⟨⟨true, y :: ys, offset, .a, r + 1⟩, ?_, .inA hsym⟩
      simp only [playTick, drive_chan, hc]
      rfl
  | @inB y ys offset r hsym =>
    rw [channelTick_head hc]
    cases r with
    | zero =>
      have hend : playTick y ys (s.drive y.levelB) =
          finishSymbol ys ((s.drive y.levelB).setChan ⟨true, y :: ys, offset, .b, 0⟩) := by
        simp only [playTick, drive_chan, hc]
      obtain ⟨c, hfinish, hsends⟩ :=
        finishSymbol_sends (s := (s.drive y.levelB).setChan ⟨true, y :: ys, offset, .b, 0⟩) hst hok rfl
          fun x hx => hsym x (List.mem_cons_of_mem y hx)
      exact ⟨c, hend.trans hfinish, hsends⟩
    | succ r =>
      refine ⟨⟨true, y :: ys, offset, .b, r + 1⟩, ?_, .inB hsym⟩
      simp only [playTick, drive_chan, hc]
      rfl

/-! ## Runs of ticks -/

theorem tickN_of_tick {s t : State} (h : tick s = .ok t) (n : Nat) : tickN (n + 1) s = tickN n t := by
  rw [tickN, h]

/-- With the controller in READY, ticks send the levels `w` and leave `w'` to send; the generator, the line and its
history alone change (R171, R177). -/
theorem tickN_sends_of_ready {s : State} {st : Strip} (hst : s.strip = some st) (hok : StripOk s.params st)
    (hready : s.ctl.phase = .ready) {w w' : List Level} (h : Sends st s.chan (w ++ w')) :
    ∃ c, tickN w.length s = .ok { s with chan := c, line := w.getLastD s.line, trace := s.trace ++ w } ∧
      Sends st c w' := by
  induction w generalizing s with
  | nil => exact ⟨s.chan, by rw [List.append_nil]; rfl, h⟩
  | cons l w ih =>
    obtain ⟨c, hchannel, hc⟩ := channelTick_sends hst hok h
    have htick : tick s = .ok ((s.drive l).setChan c) := by
      rw [tick_of_channelTick hchannel]
      simp only [controllerTick, setChan_ctl, drive_ctl, hready]
    obtain ⟨d, hrun, hd⟩ := ih (s := (s.drive l).setChan c) hst hok hready hc
    refine ⟨d, ?_, hd⟩
    rw [List.length_cons, tickN_of_tick htick, hrun, List.getLastD_cons, List.append_cons]
    rfl

/-- Outside IDLE_GAP the controller's tick leaves the generator alone, and it does not enter IDLE_GAP while a frame is
in flight (R163, R164). -/
theorem controllerTick_outside_gap {s : State} {st : Strip} (hst : s.strip = some st) (hok : StripOk s.params st)
    (hphase : s.ctl.phase ≠ .idleGap) :
    ∃ t, controllerTick s = .ok t ∧ t.chan = s.chan ∧ (s.chan.busy = true → t.ctl.phase ≠ .idleGap) := by
  obtain ⟨t, ht⟩ := exists_controllerTick fun _ => ⟨st, hst, hok⟩
  refine ⟨t, ht, ?_⟩
  rcases controllerTick_cases ht with ⟨-, rfl⟩ | ⟨-, hidle, rfl⟩ | ⟨_, -, -, -, -, rfl⟩ | ⟨_, -, -, -, -, rfl⟩ |
    ⟨_, hgap, -⟩ | ⟨_, hgap, -⟩
  · exact ⟨rfl, fun _ => hphase⟩
  · exact ⟨rfl, fun hbusy => Bool.noConfusion (hbusy.symm.trans hidle)⟩
  · exact ⟨rfl, fun _ => Phase.noConfusion⟩
  · exact ⟨rfl, fun _ => hphase⟩
  · exact absurd hgap hphase
  · exact absurd hgap hphase

/-- Whatever FLUSH waits or times out meanwhile, ticks send all that is left of a frame (R172). -/
theorem tickN_sends_outside_gap {s : State} {st : Strip} (hst : s.strip = some st) (hok : StripOk s.params st)
    {w : List Level} (h : Sends st s.chan w) (hphase : w ≠ [] → s.ctl.phase ≠ .idleGap) :
    ∃ t, tickN w.length s = .ok t ∧ t.chan = Chan.idle ∧ t.line = w.getLastD s.line ∧ t.trace = s.trace ++ w := by
  induction w generalizing s with
  | nil => exact ⟨s, rfl, h.idle, rfl, (List.append_nil _).symm⟩
  | cons l w ih =>
    obtain ⟨c, hchannel, hc⟩ := channelTick_sends hst hok h
    obtain ⟨t, hcontroller, hchan, hnext⟩ := controllerTick_outside_gap (s := (s.drive l).setChan c) hst hok
      (hphase (List.cons_ne_nil l w))
    have htick : tick s = .ok t := (tick_of_channelTick hchannel).trans hcontroller
    have ht := controllerTick_eq hcontroller
    have hphase' : w ≠ [] → t.ctl.phase ≠ .idleGap := by
      intro hw
      obtain ⟨l', w', rfl⟩ := List.exists_cons_of_ne_nil hw
      exact hnext hc.busy
    have hline : t.line = l := by rw [ht]; rfl
    have htrace : t.trace = s.trace ++ [l] := by rw [ht]; rfl
    have hstrip : t.strip = some st := by rw [ht]; exact hst
    have hparams : t.params = s.params := by rw [ht]; rfl
    obtain ⟨v, hrun, hidle, hvline, hvtrace⟩ := ih hstrip (hparams ▸ hok) (hchan ▸ hc) hphase'
    refine ⟨v, ?_, hidle, ?_, ?_⟩
    · rw [List.length_cons, tickN_of_tick htick, hrun]
    · rw [hvline, hline, List.getLastD_cons]
    · rw [hvtrace, htrace, ← List.append_cons]

/-- A FLUSH issued in READY while a frame is in flight enters WAIT_DONE and leaves what is left of the frame to send
(R161, R172). -/
theorem tickN_flush_sends {m : State} {st : Strip} (hst : m.strip = some st) (hok : StripOk m.params st)
    (hready : m.ctl.phase = .ready) {w : List Level} (h : Sends st m.chan w) (ignored : BitVec 28) :
    ∃ f t, exec (.flush ignored) m = .next f ∧ tickN w.length f = .ok t ∧ t.chan = Chan.idle ∧
      t.line = w.getLastD m.line ∧ t.trace = m.trace ++ w := by
  have hflush : commandRule (.flush ignored) m = (m.setCtl Ctl.waiting).setResult pendingWord := by
    simp only [commandRule, flushCommand, hst]
  obtain ⟨t, hrun, ht⟩ := tickN_sends_outside_gap (s := (m.setCtl Ctl.waiting).setResult pendingWord) hst hok h
    fun _ => Phase.noConfusion
  exact ⟨_, t, (exec_ready hready _).trans (congrArg _ hflush), hrun, ht⟩

/-- Settles O47: a started frame has its waveform to send; at tick `k` the first `k` levels are sent and the others left
to send, and a FLUSH issued then changes neither. -/
theorem frameWaveformIsPlayedWhole : Obligations.FrameWaveformIsPlayedWhole := by
  intro s u st hst hok hready hstart
  obtain ⟨c, rfl, hc⟩ := sends_startFrame hst hok hstart
  have hcut : ∀ k, k < (frameWave st).length → ∃ m, tickN k (s.setChan c) = .ok m ∧ m.strip = some st ∧
      StripOk m.params st ∧ m.ctl.phase = .ready ∧ m.trace = s.trace ++ (frameWave st).take k ∧
      Sends st m.chan ((frameWave st).drop k) := by
    intro k hk
    rw [← List.take_append_drop k (frameWave st)] at hc
    obtain ⟨d, hrun, hd⟩ := tickN_sends_of_ready (s := s.setChan c) hst hok hready hc
    rw [List.length_take_of_le hk.le] at hrun
    exact ⟨_, hrun, hst, hok, hready, rfl, hd⟩
  refine ⟨?_, fun k hk => ?_, fun k ignored m hk hm => ?_⟩
  · rw [← List.append_nil (frameWave st)] at hc
    obtain ⟨d, hrun, hd⟩ := tickN_sends_of_ready (s := s.setChan c) hst hok hready hc
    rw [hd.idle, getLastD_frameWave hok] at hrun
    exact hrun
  · obtain ⟨m, hrun, -, -, -, -, hd⟩ := hcut k hk
    rw [List.drop_eq_getElem_cons hk] at hd
    exact ⟨m, hrun, hd.busy⟩
  · obtain ⟨m', hrun, hmst, hmok, hmready, hmtrace, hd⟩ := hcut k hk
    obtain rfl : m' = m := Except.ok.inj (hrun.symm.trans hm)
    obtain ⟨f, t, hflush, hrest, hidle, hline, htrace⟩ := tickN_flush_sends hmst hmok hmready hd ignored
    rw [List.length_drop] at hrest
    rw [List.getLastD_eq_getLast?, List.getLast?_drop, if_neg (Nat.not_le.2 hk), ← List.getLastD_eq_getLast?,
      getLastD_frameWave hok] at hline
    rw [hmtrace, List.append_assoc, List.take_append_drop] at htrace
    exact ⟨f, t, hflush, hrest, hidle, hline, htrace⟩

end Sys2Proof.Machine
end

section
/-! PROOFS. One tick, and the one command that leaves its work to ticks: the controller's tick in each case of its
pseudocode, the submit, FLUSH at the CMD write, and what a tick can start (43_transmission.md R160 to R168, R171, R173,
R177, R178). -/

namespace Sys2Proof.Machine

/-! ## The generator's tick, as the controller sees it -/

/-- An idle generator drives the line low (R169, R177). -/
theorem channelTick_idle {s : State} (hb : s.chan.busy = false) : channelTick s = .ok (s.drive false) := by
  simp only [channelTick, hb, Bool.false_eq_true, if_false]

/-- The generator's tick hands the controller the state with a level driven and a generator set. -/
theorem exists_drive_setChan {s u : State} (h : channelTick s = .ok u) : ∃ l c, u = (s.drive l).setChan c :=
  ⟨u.line, u.chan, channelTick_eq h⟩

/-! ## The controller's tick, case by case -/

section
variable {s : State}

theorem controllerTick_ready (hp : s.ctl.phase = .ready) : controllerTick s = .ok s := by
  simp only [controllerTick, hp]

/-- An idle generator ends the wait, whatever the count (R163). -/
theorem controllerTick_wait_idle (hp : s.ctl.phase = .waitDone) (hb : s.chan.busy = false) :
    controllerTick s = .ok (s.setCtl Ctl.gapStart) := by
  simp only [controllerTick, hp, waitTick, hb, if_true]

/-- A busy generator is counted before the timeout (R163, R164). -/
theorem controllerTick_wait_busy {st : Strip} (hp : s.ctl.phase = .waitDone) (hst : s.strip = some st)
    (hb : s.chan.busy = true) (hlt : s.ctl.waitCnt + 1 < st.timeoutTicks) :
    controllerTick s = .ok (s.setCtl { s.ctl with waitCnt := s.ctl.waitCnt + 1 }) := by
  simp only [controllerTick, hp, waitTick, hb, Bool.true_eq_false, if_false, hst, if_neg (Nat.not_le.2 hlt)]

/-- A busy generator at the timeout ends the FLUSH (R164). -/
theorem controllerTick_wait_timeout {st : Strip} (hp : s.ctl.phase = .waitDone) (hst : s.strip = some st)
    (hb : s.chan.busy = true) (hle : st.timeoutTicks ≤ s.ctl.waitCnt + 1) :
    controllerTick s = .ok (endFlush CmdError.waitTimeout.word s) := by
  simp only [controllerTick, hp, waitTick, hb, Bool.true_eq_false, if_false, hst, if_pos hle]

/-- A tick of the gap that is not its last is counted (R165). -/
theorem controllerTick_gap {st : Strip} (hp : s.ctl.phase = .idleGap) (hst : s.strip = some st)
    (hne : s.ctl.gapCnt + 1 ≠ st.idleTicks) :
    controllerTick s = .ok (s.setCtl { s.ctl with gapCnt := s.ctl.gapCnt + 1 }) := by
  simp only [controllerTick, hp, gapTick, hst, if_neg hne]

/-- The last tick of the gap submits (R165). -/
theorem controllerTick_gap_last {st : Strip} (hp : s.ctl.phase = .idleGap) (hst : s.strip = some st)
    (hlast : s.ctl.gapCnt + 1 = st.idleTicks) :
    controllerTick s = submit st (s.setCtl { s.ctl with gapCnt := s.ctl.gapCnt + 1 }) := by
  simp only [controllerTick, hp, gapTick, hst, if_pos hlast]

theorem submit_refuse {st : Strip} (hv : verdictFor (.submit st.bufLen) s = .refuse) :
    submit st s = .ok (endFlush CmdError.submitRefused.word (noteQuestion (.submit st.bufLen) s)) := by
  simp only [submit, hv]

/-- An accepted submit starts the frame with its first fill and ends the FLUSH OK (R166, 42_translator.md R146). -/
theorem submit_accept {st : Strip} (hst : s.strip = some st) (hv : verdictFor (.submit st.bufLen) s = .accept)
    {y : Symbol} {ys : List Symbol} {n : Nat} (hfill : fillFrom s.params st 0 = (y :: ys, n)) :
    submit st s = .ok (endFlush okWord
      ((noteQuestion (.submit st.bufLen) s).setChan ⟨true, y :: ys, n, .a, y.durationA⟩)) := by
  simp only [submit, hv, startFrame, noteQuestion_strip, hst, noteQuestion_params, hfill]

end

/-- Settles O44: the three branches of the controller's tick in WAIT_DONE, after the generator's tick. -/
theorem waitDoneTick : Obligations.WaitDoneTick := by
  intro s u st hp hst hu
  rw [tick_of_channelTick hu]
  obtain ⟨l, c, rfl⟩ := exists_drive_setChan hu
  exact ⟨controllerTick_wait_idle hp, controllerTick_wait_busy hp hst, controllerTick_wait_timeout hp hst⟩

/-- Settles O45: the gap is counted, or its last tick submits, and the oracle's answer decides between the two ends of
the submit. -/
theorem idleGapTick : Obligations.IdleGapTick := by
  intro s u st hp hst hu
  rw [tick_of_channelTick hu]
  obtain ⟨l, c, rfl⟩ := exists_drive_setChan hu
  have last := controllerTick_gap_last (s := (s.drive l).setChan c) hp hst
  exact ⟨controllerTick_gap (s := (s.drive l).setChan c) hp hst, fun hlast hv => (last hlast).trans (submit_refuse hv),
    fun hlast hv _ _ _ hfill =>
      (last hlast).trans (submit_accept (s := ((s.drive l).setChan c).setCtl _) hst hv hfill)⟩

/-- Settles O43: the fields of what a tick leaves alone. -/
theorem tickFrame : Obligations.TickFrame := by
  intro s t h
  have ht := tick_eq h
  exact ⟨congrArg State.trace ht, (congrArg State.params ht :), congrArg State.regs ht, (congrArg State.strip ht :),
    (congrArg State.faults ht :), (congrArg (fun t => t.env.script) ht :), (congrArg (fun t => t.env.received) ht :)⟩

/-! ## Idle ticks and steps that tick -/

/-- Without a strip the invariant leaves READY alone (10_state.md R40). -/
theorem State.Inv.ready_of_no_strip {s : State} (hi : s.Inv) (hs : s.strip = none) : s.ctl.phase = .ready := by
  by_contra hp
  obtain ⟨st, hst, -⟩ := hi.strip_of_not_ready hp
  simp [hs] at hst

/-- Settles O42: an idle generator drives the line low and READY does nothing; without a strip the invariant gives
both. -/
theorem idleTick : Obligations.IdleTick := by
  intro s h
  obtain ⟨hb, hp⟩ : s.chan.busy = false ∧ s.ctl.phase = .ready := by
    rcases h with h | ⟨hi, hs⟩
    · exact h
    · exact ⟨hi.idle_of_no_strip hs, hi.ready_of_no_strip hs⟩
  exact (tick_of_channelTick (channelTick_idle hb)).trans (controllerTick_ready hp)

/-- A step whose next event is a tick ticks, on the state with the script after it (R160). -/
theorem step_of_nextEvent_tick {s : State} {l : List HostOp} (h : nextEvent s.params.base s.env.script = (.tick, l)) :
    step s = runEvent .tick (s.setScript l) := by
  rw [step_eq_runEvent, h]

/-- Settles O8: the next event of an empty script and of a TICKS is a tick. -/
theorem stepTicks : Obligations.StepTicks := by
  refine ⟨fun s hs => ?_, fun s n rest hs => ?_⟩
  · have hstep := step_of_nextEvent_tick (s := s) (l := []) (by rw [hs]; rfl)
    rw [setScript_self hs] at hstep
    exact hstep
  · exact step_of_nextEvent_tick (l := .ticks (n + 1) :: rest) (by rw [hs]; rfl)

/-! ## FLUSH at the CMD write -/

theorem flushCommand_notInit {s : State} (hs : s.strip = none) : flushCommand s = raise .notInit s := by
  simp only [flushCommand, hs]

theorem flushCommand_waits {s : State} (hs : s.strip ≠ none) :
    flushCommand s = (s.setCtl Ctl.waiting).setResult pendingWord := by
  obtain ⟨st, hst⟩ := Option.ne_none_iff_exists'.1 hs
  simp only [flushCommand, hst]

/-- Settles O20: the two ends of FLUSH's rule at the CMD write. -/
theorem flushEntersItsSequence : Obligations.FlushEntersItsSequence := by
  intro s ignored hp
  rw [exec_ready hp]
  exact ⟨fun hs => congrArg Host.Outcome.next (flushCommand_waits hs),
    fun hs => congrArg Host.Outcome.next (flushCommand_notInit hs)⟩

/-! ## What starts a frame -/

/-- No command touches the generator (R168). -/
theorem exec_chan {s t : State} {i : Instr} (h : exec i s = .next t) : t.chan = s.chan := by
  obtain ⟨u, hu, -, -, hchan, -⟩ := commandFrame s i
  obtain rfl : u = t := Host.Outcome.next.inj (hu.symm.trans h)
  exact hchan

/-- A controller's tick that makes an idle generator busy is an accepted submit (R166, R168). -/
theorem controllerTick_starts {s t : State} (h : controllerTick s = .ok t) (hs : s.chan.busy = false)
    (ht : t.chan.busy = true) :
    s.ctl.phase = .idleGap ∧ t.ctl.phase = .ready ∧ t.regs.result = okWord ∧ s.strip ≠ none := by
  have still (he : t.chan = s.chan) : False := by simp [he, hs] at ht
  rcases controllerTick_cases h with ⟨-, rfl⟩ | ⟨-, -, rfl⟩ | ⟨st, -, -, -, -, rfl⟩ | ⟨st, -, -, -, -, rfl⟩ |
    ⟨st, -, -, -, rfl⟩ | ⟨st, hp, hst, -, hsubmit⟩
  · exact (still rfl).elim
  · exact (still rfl).elim
  · exact (still rfl).elim
  · exact (still rfl).elim
  · exact (still rfl).elim
  · rcases submit_cases hsubmit with rfl | ⟨st', y, ys, -, -, rfl⟩
    · exact (still rfl).elim
    · exact ⟨hp, rfl, rfl, by simp [hst]⟩

/-- A tick that makes an idle generator busy is an accepted submit. -/
theorem tick_starts {s t : State} (h : tick s = .ok t) (hs : s.chan.busy = false) (ht : t.chan.busy = true) :
    s.ctl.phase = .idleGap ∧ t.ctl.phase = .ready ∧ t.regs.result = okWord ∧ s.strip ≠ none := by
  rw [tick_of_channelTick (channelTick_idle hs)] at h
  exact controllerTick_starts (s := s.drive false) h hs ht

/-- Settles O58: of all events a tick alone can make the generator busy, and there it is the accepted submit. -/
theorem framesStartOnlyAtASubmit : Obligations.FramesStartOnlyAtASubmit := by
  intro s t h hs ht
  have still (he : t.chan = s.chan) : False := by simp [he, hs] at ht
  rw [step_eq_runEvent] at h
  rcases runEvent_cases h with ⟨-, htick⟩ | ⟨i, hexec⟩ | ⟨r, v, rfl⟩ | ⟨env, rfl⟩ | ⟨env, rfl⟩ | ⟨-, rfl⟩
  · obtain ⟨hp, hready, hresult, hstrip⟩ := tick_starts htick hs ht
    exact ⟨hp, hready, hresult, (congrArg State.strip (tick_eq htick) :), hstrip⟩
  · exact (still (exec_chan hexec :)).elim
  · exact (still (congrArg State.chan (storeReg_eq r v _) :)).elim
  · exact (still rfl).elim
  · exact (still rfl).elim
  · exact Bool.noConfusion ht

end Sys2Proof.Machine
end

section
/-! PROOFS. The waveform generator alone: it plays a segment, and so a symbol, for its ticks (43_transmission.md R169,
40_symbol_compiler.md R104), and what it does does not depend on the controller. -/

namespace Sys2Proof.Machine

/-! ## Runs of the generator -/

theorem channelTickN_of_channelTick {s t : State} (h : channelTick s = .ok t) (n : Nat) :
    channelTickN (n + 1) s = channelTickN n t := by
  rw [channelTickN, h]

theorem channelTickN_one (s : State) : channelTickN 1 s = channelTick s := by
  rw [channelTickN]
  cases channelTick s <;> rfl

/-- A run of the generator goes on from where a shorter one ends. -/
theorem channelTickN_add {m : Nat} {s t : State} (h : channelTickN m s = .ok t) (n : Nat) :
    channelTickN (m + n) s = channelTickN n t := by
  induction m generalizing s with
  | zero =>
    cases h
    rw [Nat.zero_add]
  | succ m ih =>
    rw [Nat.add_right_comm]
    rw [channelTickN] at h ⊢
    cases hs : channelTick s with
    | error f => simp [hs] at h
    | ok u => exact ih (by simpa [hs] using h)

/-- The last tick of a run of the generator. -/
theorem channelTickN_last {n : Nat} {s t : State} (h : channelTickN n s = .ok t) :
    channelTickN (n + 1) s = channelTick t :=
  (channelTickN_add h 1).trans (channelTickN_one t)

/-! ## A symbol -/

section
variable {s : State} {y : Symbol} {ys : List Symbol} {offset : Nat}

/-- A tick of a segment that is not its last (R169). -/
theorem channelTick_within {seg : Seg} {r : Nat} (hc : s.chan = ⟨true, y :: ys, offset, seg, r + 2⟩) :
    channelTick s = .ok ((s.drive (segmentLevel seg y)).setChan ⟨true, y :: ys, offset, seg, r + 1⟩) := by
  rw [channelTick_head hc]
  simp only [playTick, drive_chan, hc]

/-- The last tick of segment A (R169). -/
theorem channelTick_endA (hc : s.chan = ⟨true, y :: ys, offset, .a, 1⟩) :
    channelTick s = .ok ((s.drive (segmentLevel .a y)).setChan ⟨true, y :: ys, offset, .b, y.durationB⟩) := by
  rw [channelTick_head hc]
  simp only [playTick, drive_chan, hc]

/-- The last tick of segment B, with another symbol in the pulse memory (R169). -/
theorem channelTick_endB {z : Symbol} (hc : s.chan = ⟨true, y :: z :: ys, offset, .b, 1⟩) :
    channelTick s = .ok ((s.drive (segmentLevel .b y)).setChan ⟨true, z :: ys, offset, .a, z.durationA⟩) := by
  rw [channelTick_head hc]
  simp only [playTick, drive_chan, hc]
  rfl

/-- A segment keeps its level for the ticks it has left; its last tick decides the generator after it (R104, R169). -/
theorem channelTickN_segment {seg : Seg} {c : Chan}
    (hend : ∀ t : State, t.chan = ⟨true, y :: ys, offset, seg, 1⟩ →
      channelTick t = .ok ((t.drive (segmentLevel seg y)).setChan c))
    {r : Nat} (hc : s.chan = ⟨true, y :: ys, offset, seg, r + 1⟩) :
    channelTickN (r + 1) s = .ok { s with
      chan := c
      line := segmentLevel seg y
      trace := s.trace ++ List.replicate (r + 1) (segmentLevel seg y) } := by
  induction r generalizing s with
  | zero =>
    rw [channelTickN_one, hend s hc]
    rfl
  | succ r ih =>
    rw [channelTickN_of_channelTick (channelTick_within hc), ih rfl, List.replicate_succ (n := r + 1), List.append_cons]
    rfl

end

/-- Settles O46: segment A and then segment B, each played for its duration. -/
theorem generatorPlaysASymbol : Obligations.GeneratorPlaysASymbol := by
  intro s h g rest hb hmem hseg hrem hA hB
  obtain ⟨a, hdurA⟩ := Nat.exists_eq_add_of_le' hA
  obtain ⟨b, hdurB⟩ := Nat.exists_eq_add_of_le' hB
  have hc : s.chan = ⟨true, h :: g :: rest, s.chan.offset, .a, a + 1⟩ := by
    rw [← hdurA, ← hrem, ← hseg, ← hmem, ← hb]
  have hplayA := channelTickN_segment (fun _ => channelTick_endA) hc
  rw [hdurB] at hplayA ⊢
  rw [hdurA, channelTickN_add hplayA, ← List.append_assoc]
  simp only [hb]
  exact channelTickN_segment (fun _ => channelTick_endB) rfl

/-! ## The generator does not see the controller -/

/-- The generator's tick with another controller is the tick, with that controller kept: of all its branches only a
refill computes on the state, and it leaves the controller alone too (R169). -/
theorem channelTick_setCtl (c : Ctl) (s : State) :
    channelTick (s.setCtl c) = (channelTick s).map (State.setCtl c) := by
  obtain ⟨params, regs, strip, ⟨busy, mem, offset, seg, rem⟩, ctl, line, trace, faults, env⟩ := s
  cases busy with
  | false => rfl
  | true =>
    cases mem with
    | nil => rfl
    | cons y ys =>
      match rem, seg with
      | 0, _ => rfl
      | 1, .a => rfl
      | r + 2, _ => rfl
      | 1, .b =>
        cases ys with
        | cons z zs => rfl
        | nil =>
          cases strip with
          | none => rfl
          | some st =>
            simp only [channelTick, setCtl_chan, if_true, playTick, drive_chan, finishSymbol, refill, setChan_chan,
              setChan_strip, drive_strip, setCtl_strip, setChan_params, drive_params, setCtl_params, startHead]
            cases (fillFrom params st offset).1 <;> rfl

end Sys2Proof.Machine
end

section
/-! PROOFS. The timing of a FLUSH: with no frame in flight, during a frame, and the bound on every FLUSH
(43_transmission.md R163 to R166, R174, R176). -/

namespace Sys2Proof.Machine

/-! ## Runs of ticks -/

/-- The last tick of a run. -/
theorem tickN_last {n : Nat} {s t : State} (h : tickN n s = .ok t) : tickN (n + 1) s = tick t := by
  induction n generalizing s with
  | zero =>
    cases h
    simp only [tickN]
    cases tick t <;> rfl
  | succ n ih =>
    obtain ⟨u, hu, ht⟩ := tickN_succ h
    rw [tickN_of_tick hu, ih ht]

/-! ## With no frame in flight -/

/-- The state on tick `1 + k` of a FLUSH that `s` starts with no frame in flight: `k` ticks of the gap counted, the line
low on every tick (R165, R176). -/
def State.inGap (s : State) (k : Nat) : State :=
  { s with
    ctl := { phase := .idleGap, waitCnt := 0, gapCnt := k }
    line := false
    trace := s.trace ++ List.replicate (1 + k) false }

/-- One more low level in the history of the gap. -/
theorem State.inGap_trace_append (s : State) (k : Nat) :
    (s.inGap k).trace ++ [false] = s.trace ++ List.replicate (1 + (k + 1)) false := by
  rw [State.inGap, List.append_assoc, ← Nat.add_assoc, List.replicate_succ']

/-- The first tick of such a FLUSH ends the wait, and each tick after it counts the gap until its last one. -/
theorem tickN_inGap {s : State} {st : Strip} (hst : s.strip = some st) (hp : s.ctl.phase = .waitDone)
    (hb : s.chan.busy = false) {k : Nat} (hk : k < st.idleTicks) : tickN (1 + k) s = .ok (s.inGap k) := by
  induction k with
  | zero =>
    obtain ⟨hwait, -⟩ := waitDoneTick s _ st hp hst (channelTick_idle hb)
    exact tickN_of_tick (hwait hb) 0
  | succ k ih =>
    obtain ⟨hgap, -⟩ := idleGapTick (s.inGap k) _ st rfl hst (channelTick_idle hb)
    rw [← Nat.add_assoc, tickN_last (ih (Nat.lt_of_succ_lt hk)), hgap (Nat.ne_of_lt hk), drive_trace,
      State.inGap_trace_append]
    rfl

/-- A legal strip's first fill has a head symbol (42_translator.md R146). -/
theorem StripOk.exists_firstFill {p : Params} {st : Strip} (hok : StripOk p st) :
    ∃ y ys n, fillFrom p st 0 = (y :: ys, n) := by
  obtain ⟨y, ys, hfill⟩ := List.exists_cons_of_ne_nil (mt (fillFrom_nil p st 0).1 (Nat.not_le.2 hok.bufLen_pos))
  exact ⟨y, ys, _, Prod.ext hfill rfl⟩

/-- The first tick of a frame is high (R171, R176). -/
theorem tick_of_firstFill {s : State} {st : Strip} (hst : s.strip = some st) (hok : StripOk s.params st)
    (hready : s.ctl.phase = .ready) {y : Symbol} {ys : List Symbol} {n : Nat}
    (hfill : fillFrom s.params st 0 = (y :: ys, n)) (hc : s.chan = ⟨true, y :: ys, n, .a, y.durationA⟩) :
    ∃ u, tick s = .ok u ∧ u.line = true := by
  have hsym : ∀ x ∈ y :: ys, x = st.zeroSym ∨ x = st.oneSym := fun x hx => mem_fillFrom (by rwa [hfill])
  have hsends := hc ▸ sends_head hok hsym n
  obtain ⟨hA, -⟩ := hok.durations_pos (hsym y List.mem_cons_self)
  obtain ⟨r, hr⟩ := Nat.exists_eq_add_of_le' hA
  rw [waveAfter_cons, hr, List.replicate_succ, List.cons_append] at hsends
  obtain ⟨c, hchannel, -⟩ := channelTick_sends hst hok hsends
  have hhigh : y.levelA = true := by
    obtain ⟨hz, ho, -⟩ := hok.levels
    rcases hsym y List.mem_cons_self with rfl | rfl
    · exact hz
    · exact ho
  exact ⟨_, (tick_of_channelTick hchannel).trans (controllerTick_ready hready), hhigh⟩

/-- Settles O48: tick 1 ends the wait, the ticks after it count the gap, the gap's last tick submits, and the frame
begins high. -/
theorem flushTimingWithNoFrame : Obligations.FlushTimingWithNoFrame := by
  intro s st hi hst hctl hb hv
  have hok := hi.strip_ok st hst
  have hp : s.ctl.phase = .waitDone := by rw [hctl]
  refine ⟨fun k hk => ?_, ?_⟩
  · cases k with
    | zero => exact ⟨s, rfl, by simp [hp], hb⟩
    | succ k =>
      have hrun := tickN_inGap hst hp hb (k := k) (by omega)
      exact ⟨s.inGap k, by rw [Nat.add_comm, hrun], nofun, hb⟩
  · obtain ⟨i, hidle⟩ := Nat.exists_eq_add_of_le' hok.idle_pos
    obtain ⟨y, ys, n, hfill⟩ := hok.exists_firstFill
    obtain ⟨-, -, hsubmit⟩ := idleGapTick (s.inGap i) _ st rfl hst (channelTick_idle hb)
    obtain ⟨t, hlast, hready, hresult, hchan, htst, hparams, htrace⟩ : ∃ t, tick (s.inGap i) = .ok t ∧
        t.ctl.phase = .ready ∧ t.regs.result = 0#32 ∧ t.chan = ⟨true, y :: ys, n, .a, y.durationA⟩ ∧
        t.strip = some st ∧ t.params = s.params ∧ t.trace = (s.inGap i).trace ++ [false] :=
      ⟨_, hsubmit hidle.symm hv y ys n hfill, rfl, rfl, rfl, hst, rfl, rfl⟩
    have hrun := (tickN_last (tickN_inGap hst hp hb (by omega))).trans hlast
    obtain ⟨u, hu, hline⟩ := tick_of_firstFill htst (hparams ▸ hok) hready (hparams ▸ hfill) hchan
    rw [hidle, ← Nat.add_assoc]
    exact ⟨t, u, hrun, hready, hresult, by rw [hchan], htrace.trans (s.inGap_trace_append i), hu, hline⟩

/-! ## During a frame -/

/-- A tick whose generator's step is known, with another controller, is that controller's tick after it. -/
theorem tick_setCtl {s u : State} (h : channelTick s = .ok u) (c : Ctl) :
    tick (s.setCtl c) = controllerTick (u.setCtl c) := by
  refine tick_of_channelTick ?_
  rw [channelTick_setCtl, h]
  rfl

/-- Before the timeout a FLUSH only counts the ticks of the frame it waits for, which goes on as it would without it
(R163, R172). -/
theorem tickN_wait {s : State} {st : Strip} (hst : s.strip = some st) (hctl : s.ctl = Ctl.waiting) {k : Nat}
    (hbusy : ∀ j, j ≤ k → ∃ m, channelTickN j s = .ok m ∧ m.chan.busy = true) (hk : k < st.timeoutTicks) :
    ∃ m, channelTickN k s = .ok m ∧ m.strip = some st ∧
      tickN k s = .ok (m.setCtl { phase := .waitDone, waitCnt := k, gapCnt := 0 }) := by
  induction k with
  | zero => exact ⟨s, rfl, hst, congrArg (fun c => Except.ok (s.setCtl c)) hctl⟩
  | succ k ih =>
    obtain ⟨m, hm, hmst, hrun⟩ := ih (fun j hj => hbusy j (Nat.le_succ_of_le hj)) (Nat.lt_of_succ_lt hk)
    obtain ⟨u, hu, hub⟩ := hbusy (k + 1) le_rfl
    have hstep := (channelTickN_last hm).symm.trans hu
    have hust : u.strip = some st := (congrArg State.strip (channelTick_eq hstep) :).trans hmst
    refine ⟨u, hu, hust, ?_⟩
    rw [tickN_last hrun, tick_setCtl hstep]
    exact controllerTick_wait_busy rfl hust hub hk

/-- Settles O49: up to the tick before the timeout or the frame's end the FLUSH counts, and the next tick decides. -/
theorem flushWaitsForTheFrameOrTimesOut : Obligations.FlushWaitsForTheFrameOrTimesOut := by
  intro s v st r hst hctl hpos hv hidle hbusy
  refine ⟨fun hlate => ?_, fun hr hle => ?_⟩
  · obtain ⟨k, hk⟩ := Nat.exists_eq_add_of_le' hpos
    obtain ⟨m, hm, hmst, hrun⟩ := tickN_wait hst hctl (k := k) (fun j hj => hbusy j (by omega)) (by omega)
    obtain ⟨u, hu, hub⟩ := hbusy (k + 1) (by omega)
    have hstep := (channelTickN_last hm).symm.trans hu
    have hust : u.strip = some st := (congrArg State.strip (channelTick_eq hstep) :).trans hmst
    rw [hk, tickN_last hrun, tick_setCtl hstep]
    exact ⟨u, hu, hub, controllerTick_wait_timeout rfl hust hub hk.le⟩
  · obtain ⟨k, rfl⟩ := Nat.exists_eq_add_of_le' hr
    obtain ⟨m, hm, -, hrun⟩ := tickN_wait hst hctl (k := k) (fun j hj => hbusy j (by omega)) (by omega)
    rw [tickN_last hrun, tick_setCtl ((channelTickN_last hm).symm.trans hv)]
    exact controllerTick_wait_idle rfl hidle

/-! ## Every FLUSH -/

/-- The outcomes a FLUSH in progress can end with (60_exceptions.md R192). -/
def flushOutcomes : List Word := [okWord, CmdError.waitTimeout.word, CmdError.submitRefused.word]

/-- A bound on the ticks a FLUSH still takes: the rest of its wait and the whole gap, or the rest of its gap (R176). -/
def Ctl.ticksLeft (st : Strip) (c : Ctl) : Nat :=
  match c.phase with
  | .ready => 0
  | .waitDone => st.timeoutTicks - c.waitCnt + st.idleTicks
  | .idleGap => st.idleTicks - c.gapCnt

theorem Ctl.ticksLeft_waitDone (st : Strip) {c : Ctl} (h : c.phase = .waitDone) :
    c.ticksLeft st = st.timeoutTicks - c.waitCnt + st.idleTicks := by
  rw [ticksLeft, h]

theorem Ctl.ticksLeft_idleGap (st : Strip) {c : Ctl} (h : c.phase = .idleGap) :
    c.ticksLeft st = st.idleTicks - c.gapCnt := by
  rw [ticksLeft, h]

theorem Ctl.ticksLeft_le (st : Strip) (c : Ctl) : c.ticksLeft st ≤ st.timeoutTicks + st.idleTicks := by
  unfold ticksLeft
  split <;> omega

/-- A submit ends its FLUSH (R166). -/
theorem submit_ends {st : Strip} {s t : State} (h : submit st s = .ok t) :
    t.ctl = Ctl.ready ∧ t.regs.result ∈ flushOutcomes := by
  rcases submit_cases h with rfl | ⟨st', y, ys, -, -, rfl⟩
  · exact ⟨rfl, (by decide : CmdError.submitRefused.word ∈ flushOutcomes)⟩
  · exact ⟨rfl, (by decide : okWord ∈ flushOutcomes)⟩

section
variable {s t : State} {st : Strip} (hi : s.Inv) (hst : s.strip = some st)
include hi hst

theorem waitCnt_lt_of_inv (hw : s.ctl.phase = .waitDone) : s.ctl.waitCnt < st.timeoutTicks := by
  obtain ⟨st', hst', hlt, -⟩ := hi.wait_bound hw
  rwa [Option.some.inj (hst.symm.trans hst')]

theorem gapCnt_lt_of_inv (hg : s.ctl.phase = .idleGap) : s.ctl.gapCnt < st.idleTicks := by
  obtain ⟨-, st', hst', hlt, -⟩ := hi.gap_bound hg
  rwa [Option.some.inj (hst.symm.trans hst')]

/-- Under the invariant each controller's tick of a FLUSH leaves it fewer ticks, and where it ends the FLUSH, RESULT is
one of the outcomes (R163). -/
theorem controllerTick_flush_of_inv (hp : s.ctl.phase ≠ .ready) (h : controllerTick s = .ok t) :
    t.ctl.ticksLeft st < s.ctl.ticksLeft st ∧ (t.ctl.phase = .ready → t.regs.result ∈ flushOutcomes) := by
  rcases controllerTick_cases h with ⟨hr, -⟩ | ⟨hw, -, rfl⟩ | ⟨_, hw, -, -, -, rfl⟩ | ⟨_, hw, -, -, -, rfl⟩ |
    ⟨_, hg, -, -, rfl⟩ | ⟨_, hg, -, -, hsubmit⟩
  · exact absurd hr hp
  · have hlt := waitCnt_lt_of_inv hi hst hw
    have hgap : Ctl.gapStart.ticksLeft st = st.idleTicks := rfl
    rw [setCtl_ctl, hgap, Ctl.ticksLeft_waitDone st hw]
    exact ⟨by omega, nofun⟩
  · have hlt := waitCnt_lt_of_inv hi hst hw
    have hend : Ctl.ready.ticksLeft st = 0 := rfl
    rw [endFlush_ctl, hend, Ctl.ticksLeft_waitDone st hw]
    exact ⟨by omega, fun _ => (by decide : CmdError.waitTimeout.word ∈ flushOutcomes)⟩
  · have hlt := waitCnt_lt_of_inv hi hst hw
    have hnext := Ctl.ticksLeft_waitDone st (c := { s.ctl with waitCnt := s.ctl.waitCnt + 1 }) hw
    rw [setCtl_ctl, hnext, Ctl.ticksLeft_waitDone st hw]
    exact ⟨by dsimp only; omega, fun hr => absurd hr hp⟩
  · have hlt := gapCnt_lt_of_inv hi hst hg
    have hnext := Ctl.ticksLeft_idleGap st (c := { s.ctl with gapCnt := s.ctl.gapCnt + 1 }) hg
    rw [setCtl_ctl, hnext, Ctl.ticksLeft_idleGap st hg]
    exact ⟨by dsimp only; omega, fun hr => absurd hr hp⟩
  · have hlt := gapCnt_lt_of_inv hi hst hg
    obtain ⟨hctl, hresult⟩ := submit_ends hsubmit
    have hend : Ctl.ready.ticksLeft st = 0 := rfl
    rw [hctl, hend, Ctl.ticksLeft_idleGap st hg]
    exact ⟨by omega, fun _ => hresult⟩

/-- So does each tick, whose generator's step leaves the controller alone (R160). -/
theorem tick_flush_of_inv (hp : s.ctl.phase ≠ .ready) (h : tick s = .ok t) :
    t.ctl.ticksLeft st < s.ctl.ticksLeft st ∧ (t.ctl.phase = .ready → t.regs.result ∈ flushOutcomes) := by
  obtain ⟨u, hu, ht⟩ := tick_ok h
  have hctl : u.ctl = s.ctl := (congrArg State.ctl (channelTick_eq hu) :)
  have hust : u.strip = s.strip := (congrArg State.strip (channelTick_eq hu) :)
  have hflush := controllerTick_flush_of_inv (hi.channelTick hu) (hust.trans hst) (hctl ▸ hp) ht
  rwa [hctl] at hflush

end

/-- Under the invariant a FLUSH ends within the ticks it has left. -/
theorem tickN_flush_of_inv {s : State} {st : Strip} (hi : s.Inv) (hst : s.strip = some st) (hp : s.ctl.phase ≠ .ready)
    {n : Nat} (hn : s.ctl.ticksLeft st ≤ n) :
    ∃ k t, k ≤ n ∧ tickN k s = .ok t ∧ t.ctl.phase = .ready ∧ t.regs.result ∈ flushOutcomes := by
  induction n generalizing s with
  | zero =>
    obtain ⟨t, ht⟩ := hi.exists_tick
    obtain ⟨hlt, -⟩ := tick_flush_of_inv hi hst hp ht
    omega
  | succ n ih =>
    obtain ⟨t, ht⟩ := hi.exists_tick
    obtain ⟨hlt, hend⟩ := tick_flush_of_inv hi hst hp ht
    by_cases hready : t.ctl.phase = .ready
    · exact ⟨1, t, by omega, tickN_of_tick ht 0, hready, hend hready⟩
    · have htst : t.strip = some st := (congrArg State.strip (tick_eq ht) :).trans hst
      obtain ⟨k, v, hk, hrun, hv⟩ := ih (hi.tick ht) htst hready (by omega)
      exact ⟨k + 1, v, by omega, (tickN_of_tick ht k).trans hrun, hv⟩

/-- Settles O50: the ticks left are at most the whole timeout and the whole gap. -/
theorem everyFlushEnds : Obligations.EveryFlushEnds := fun s st hi hst hp =>
  tickN_flush_of_inv hi hst hp (s.ctl.ticksLeft_le st)

end Sys2Proof.Machine
end

section
/-! PROOFS. Results and errors, model faults and counter widths (60_exceptions.md): the checks of INIT in their order
(R196), the RESULT values of each command (R192), a command during a FLUSH (R201), the fault set over a step (R203), the
counters within 32 bits (R206). -/

namespace Sys2Proof.Machine

/-! ## The checks of INIT -/

theorem initCommand_alreadyInit {s : State} (hs : s.strip ≠ none) : initCommand s = raise .alreadyInit s := by
  obtain ⟨st, hst⟩ := Option.ne_none_iff_exists'.1 hs
  simp only [initCommand, hst]

theorem initCommand_unsupportedType {s : State} (hs : s.strip = none)
    (hprofile : s.params.profile (cfgDev s.regs.cfg) = none) : initCommand s = raise .unsupportedType s := by
  simp only [initCommand, hs, hprofile]

theorem initCommand_withProfile {s : State} {prof : Profile} (hs : s.strip = none)
    (hprofile : s.params.profile (cfgDev s.regs.cfg) = some prof) : initCommand s = initWithProfile prof s := by
  simp only [initCommand, hs, hprofile]

theorem initWithProfile_zeroCount (prof : Profile) {s : State} (hcount : cfgCount s.regs.cfg = 0) :
    initWithProfile prof s = raise .zeroCount s := by
  rw [initWithProfile, if_pos hcount]

section
variable {prof : Profile} {s : State} (hcount : cfgCount s.regs.cfg ≠ 0)
include hcount

theorem initWithProfile_badDivisor (hdivisor : divDivisor s.regs.div = 0) :
    initWithProfile prof s = raise .badDivisor s := by
  rw [initWithProfile, if_neg hcount, if_pos hdivisor]

variable {z o : Symbol} (hdivisor : divDivisor s.regs.div ≠ 0)
  (hcompile : compileSymbols prof s.params.fTimer (divDivisor s.regs.div) = (z, o))
include hdivisor hcompile

theorem initWithProfile_symbolRange (hsymbols : symOk z o = false) :
    initWithProfile prof s = raise .symbolRange s := by
  rw [initWithProfile, if_neg hcount, if_neg hdivisor, hcompile, if_pos hsymbols]

theorem initWithProfile_alloc (hsymbols : symOk z o = true)
    (hfull : s.params.bufCapacity < cfgCount s.regs.cfg * channelSize (cfgFour s.regs.cfg)) :
    initWithProfile prof s = raise .alloc s := by
  rw [initWithProfile, if_neg hcount, if_neg hdivisor, hcompile, if_neg (ne_false_of_eq_true hsymbols), if_pos hfull]

end

/-- INIT's checks with the two compiled symbols named (R121, 40_symbol_compiler.md R103). -/
theorem initChecked_of_compileSymbols {p : Params} {prof : Profile} {cfg div : Word} {z o : Symbol}
    (hprofile : p.profile (cfgDev cfg) = some prof) (hcount : cfgCount cfg ≠ 0) (hdivisor : divDivisor div ≠ 0)
    (hcompile : compileSymbols prof p.fTimer (divDivisor div) = (z, o)) (hsymbols : symOk z o = true)
    (hfits : cfgCount cfg * channelSize (cfgFour cfg) ≤ p.bufCapacity) : InitChecked p prof cfg div := by
  refine ⟨hprofile, hcount, hdivisor, ?_, hfits⟩
  rw [initStrip, hcompile]
  exact hsymbols

/-- Settles O14: each clause is the check of INIT's rule that its hypotheses name, in the rule's order. -/
theorem initReportsTheFirstFailingCheck : Obligations.InitReportsTheFirstFailingCheck := by
  intro s ignored hp
  rw [exec_ready hp]
  refine ⟨fun hs => ?_, fun hs hprofile => ?_, fun prof hs hprofile => ?_⟩
  · exact congrArg Host.Outcome.next (initCommand_alreadyInit hs)
  · exact congrArg Host.Outcome.next (initCommand_unsupportedType hs hprofile)
  · have hrule : commandRule (.init ignored) s = initWithProfile prof s := initCommand_withProfile hs hprofile
    rw [hrule]
    refine ⟨fun hcount => ?_, fun hcount hdivisor => ?_, fun z o hcount hdivisor hcompile =>
      ⟨fun hsymbols => ?_, fun hsymbols hfull => ?_, fun hsymbols hfits hrefuse => ?_⟩⟩
    · exact congrArg Host.Outcome.next (initWithProfile_zeroCount prof hcount)
    · exact congrArg Host.Outcome.next (initWithProfile_badDivisor hcount hdivisor)
    · exact congrArg Host.Outcome.next (initWithProfile_symbolRange hcount hdivisor hcompile hsymbols)
    · exact congrArg Host.Outcome.next (initWithProfile_alloc hcount hdivisor hcompile hsymbols hfull)
    · have hchecked := initChecked_of_compileSymbols hprofile hcount hdivisor hcompile hsymbols hfits
      have hbind := (initCommand_of_checked hs hchecked).trans (initBind_refuse hrefuse)
      exact ⟨_, rfl, congrArg Host.Outcome.next (hrule.symm.trans hbind)⟩

/-! ## The RESULT values of each command -/

/-- An error of a list leaves one of the list's RESULT words. -/
theorem raise_result_mem {e : CmdError} {l : List CmdError} (he : e ∈ l) (s : State) :
    (raise e s).regs.result ∈ l.map CmdError.word := List.mem_map_of_mem he

theorem initCommand_result (s : State) : (initCommand s).regs.result ∈ okWord ::
    [CmdError.alreadyInit, .unsupportedType, .zeroCount, .badDivisor, .symbolRange, .alloc, .configRefused].map
      CmdError.word := by
  rcases initCommand_cases s with ⟨e, he, hr⟩ | ⟨prof, -, -, hr⟩
  · rw [hr]
    exact List.mem_cons_of_mem _ (raise_result_mem (List.mem_append_left [CmdError.configRefused] he) s)
  · rw [hr]
    cases hv : verdictFor (.configure (cfgGpio s.regs.cfg) (divDivisor s.regs.div)) s with
    | accept =>
      rw [initBind_accept hv]
      exact List.mem_cons_self
    | refuse =>
      rw [initBind_refuse hv]
      exact List.mem_cons_of_mem _ (raise_result_mem (by decide) _)

theorem setPixelCommand_result (s : State) : (setPixelCommand s).regs.result ∈ okWord ::
    [CmdError.notInit, .indexRange, .busy].map CmdError.word := by
  rcases setPixelCommand_cases s with ⟨e, he, hr⟩ | ⟨st, -, -, -, hr⟩
  · rw [hr]
    exact List.mem_cons_of_mem _ (raise_result_mem he s)
  · rw [hr]
    exact List.mem_cons_self

theorem flushCommand_result (s : State) :
    (flushCommand s).regs.result ∈ [CmdError.notInit.word, pendingWord] := by
  rcases flushCommand_cases s with ⟨-, hr⟩ | ⟨-, hr⟩
  · rw [hr]
    exact List.mem_cons_self
  · rw [hr]
    exact List.mem_cons_of_mem _ List.mem_cons_self

theorem releaseCommand_result (s : State) : (releaseCommand s).regs.result ∈ okWord ::
    [CmdError.notInit, .busy].map CmdError.word := by
  rcases releaseCommand_cases s with ⟨e, he, hr⟩ | ⟨-, -, hr⟩
  · rw [hr]
    exact List.mem_cons_of_mem _ (raise_result_mem he s)
  · rw [hr]
    exact List.mem_cons_self

/-- Settles O26: the table's words are those of the errors each rule can raise, of success and of PENDING. -/
theorem commandResultsAreTheListed : Obligations.CommandResultsAreTheListed := by
  intro s t i hp h
  rw [exec_ready hp] at h
  cases h
  refine ⟨?_, ?_, ?_, ?_, fun g hmem => ?_⟩
  · rintro g rfl
    exact initCommand_result s
  · rintro g rfl
    exact setPixelCommand_result s
  · rintro g rfl
    exact flushCommand_result s
  · rintro g rfl
    exact releaseCommand_result s
  · rw [commandRule_of_mem_reservedCommands hmem]
    rfl

/-! ## Model faults -/

/-- Settles O23: `issue` drops the command and records CMD_OVERLAP. -/
theorem commandDuringFlushIsDropped : Obligations.CommandDuringFlushIsDropped := fun _ i hp => exec_overlap hp i

/-- Recording a fault keeps every fault of the set (R203). -/
theorem FaultSet.has_add {f : FaultSet} {k : ModelFault} (h : f.has k = true) (j : ModelFault) :
    (f.add j).has k = true := by
  cases j with
  | cmdOverlap =>
    cases k with
    | cmdOverlap => rfl
    | busAccess => exact h
  | busAccess =>
    cases k with
    | cmdOverlap => exact h
    | busAccess => rfl

/-- A command leaves the fault set or adds CMD_OVERLAP to it (R201). -/
theorem exec_faults {s t : State} {i : Instr} (h : exec i s = .next t) :
    t.faults = s.faults ∨ t.faults = s.faults.add .cmdOverlap := by
  by_cases hp : s.ctl.phase = .ready
  · obtain ⟨_, _, _, _, hr, -⟩ := commandRule_writes i s
    obtain rfl := Host.Outcome.next.inj ((exec_ready hp i).symm.trans h)
    exact .inl (congrArg State.faults hr :)
  · obtain rfl := Host.Outcome.next.inj ((exec_overlap hp i).symm.trans h)
    exact .inr rfl

/-- No command writes a parameter (10_state.md R47). -/
theorem exec_params {s t : State} {i : Instr} (h : exec i s = .next t) : t.params = s.params := by
  obtain ⟨u, hu, hparams, -⟩ := commandFrame s i
  obtain rfl : u = t := Host.Outcome.next.inj (hu.symm.trans h)
  exact hparams

/-- An event leaves the parameters, and the fault set but for at most one fault added to it (R200, R203, 10_state.md
R47). -/
theorem runEvent_params_faults {e : Event} {s t : State} (h : runEvent e s = .next t) :
    t.params = s.params ∧ (t.faults = s.faults ∨ ∃ k, t.faults = s.faults.add k) := by
  rcases runEvent_cases h with ⟨-, ht⟩ | ⟨i, hexec⟩ | ⟨r, v, rfl⟩ | ⟨env, rfl⟩ | ⟨env, rfl⟩ | ⟨-, rfl⟩
  · exact ⟨(congrArg State.params (tick_eq ht) :), .inl (congrArg State.faults (tick_eq ht) :)⟩
  · exact ⟨exec_params hexec, (exec_faults hexec).imp_right fun hk => ⟨.cmdOverlap, hk⟩⟩
  · rw [storeReg_eq]
    exact ⟨rfl, .inl rfl⟩
  · exact ⟨rfl, .inl rfl⟩
  · exact ⟨rfl, .inr ⟨.busAccess, rfl⟩⟩
  · exact ⟨rfl, .inl rfl⟩

/-- Settles O55: a step is one event, which at most adds to the fault set. -/
theorem faultsAreStickyAndParametersFixed : Obligations.FaultsAreStickyAndParametersFixed := by
  intro s t h
  rw [step_eq_runEvent] at h
  obtain ⟨hparams, hkept | ⟨j, hadded⟩⟩ := runEvent_params_faults h
  · exact ⟨hparams, fun k hk => hkept ▸ hk⟩
  · exact ⟨hparams, fun k hk => hadded ▸ FaultSet.has_add hk j⟩

/-! ## Counter widths -/

/-- The durations of accepted symbols fit the symbol word (40_symbol_compiler.md R107). -/
theorem symOk_le {z o : Symbol} (h : symOk z o = true) :
    (z.durationA ≤ Config.durMax ∧ z.durationB ≤ Config.durMax) ∧
      o.durationA ≤ Config.durMax ∧ o.durationB ≤ Config.durMax := by
  simp only [symOk, durationOk, Bool.and_eq_true, decide_eq_true_eq] at h
  omega

/-- So do the durations of a strip's symbols. -/
theorem StripOk.segmentTicks_le {p : Params} {st : Strip} (hok : StripOk p st) {y : Symbol}
    (hy : y = st.zeroSym ∨ y = st.oneSym) (seg : Seg) : segmentTicks seg y ≤ Config.durMax := by
  obtain ⟨⟨hzA, hzB⟩, hoA, hoB⟩ := symOk_le hok.symbols
  rcases hy with rfl | rfl
  · cases seg with
    | a => exact hzA
    | b => exact hzB
  · cases seg with
    | a => exact hoA
    | b => exact hoB

/-- The ticks left in a segment being played are at most those of its symbol's segment (10_state.md R38). -/
theorem Playing.rem_le_durMax {p : Params} {st : Strip} {c : Chan} (h : Playing p st c) (hok : StripOk p st) :
    c.rem ≤ Config.durMax := by
  obtain ⟨y, ys, hmem⟩ := List.exists_cons_of_ne_nil h.mem_nonempty
  have hy : y = st.zeroSym ∨ y = st.oneSym := h.mem_symbols y (hmem ▸ List.mem_cons_self)
  calc c.rem ≤ segmentTicks c.seg y := h.rem_le y (hmem ▸ rfl)
    _ ≤ Config.durMax := hok.segmentTicks_le hy c.seg

theorem State.Inv.rem_lt {s : State} (hi : s.Inv) : s.chan.rem < 2 ^ 32 := by
  cases hb : s.chan.busy with
  | false =>
    rw [hi.idle_shape hb]
    decide
  | true =>
    obtain ⟨st, hst, hplaying⟩ := hi.busy_playing hb
    calc s.chan.rem ≤ Config.durMax := hplaying.rem_le_durMax (hi.strip_ok st hst)
      _ < 2 ^ 32 := by decide

/-- Each counter of the controller is below the count it runs to in its own phase, and 0 in the others (10_state.md
R40). -/
theorem State.Inv.ctl_counters_lt {s : State} (hi : s.Inv) : s.ctl.waitCnt < 2 ^ 32 ∧ s.ctl.gapCnt < 2 ^ 32 := by
  cases hp : s.ctl.phase with
  | ready =>
    rw [hi.ready_shape hp]
    decide
  | waitDone =>
    obtain ⟨st, hst, hwait, hgap⟩ := hi.wait_bound hp
    exact ⟨hwait.trans (hi.strip_ok st hst).timeout_lt, hgap ▸ Nat.two_pow_pos 32⟩
  | idleGap =>
    obtain ⟨-, st, hst, hgap, hwait⟩ := hi.gap_bound hp
    exact ⟨hwait ▸ Nat.two_pow_pos 32, hgap.trans (hi.strip_ok st hst).idle_lt⟩

/-- Settles O59: each counter is bounded by a count of the strip, and those fit 32 bits under the invariant. -/
theorem countersFit32Bits : Obligations.CountersFit32Bits := by
  intro s hi
  obtain ⟨hwait, hgap⟩ := hi.ctl_counters_lt
  refine ⟨hwait, hgap, hi.rem_lt, fun st hst => ?_⟩
  have hok := hi.strip_ok st hst
  exact ⟨hok.idle_lt, hok.timeout_lt⟩

end Sys2Proof.Machine
end

section
/-! PROOFS. The reset input, and the range of the tick counts on this hardware (70_reset_and_hazards.md R220, R225). -/

namespace Sys2Proof.Machine

/-! ## The range of the tick counts -/

/-- `ceil_div(a, b)` is the least natural whose product with `b` reaches `a` (00_scope.md R10). -/
theorem ceilDiv_le_of_le_mul {a b q : Nat} (hb : 0 < b) (h : a ≤ q * b) : ceilDiv a b ≤ q := by
  have hlt : ceilDiv a b * b < (q + 1) * b :=
    calc ceilDiv a b * b < a + b := (ceilDiv_roundsUp a hb).2
      _ ≤ q * b + b := Nat.add_le_add_right h b
      _ = (q + 1) * b := (Nat.add_one_mul q b).symm
  exact Nat.le_of_lt_succ (Nat.lt_of_mul_lt_mul_right hlt)

/-- A time of at most one second takes at most `F_TIMER` ticks, whatever the divisor (R110, R111). -/
theorem ceilDiv_le_fTimer {ns d : Nat} (f : Nat) (hns : ns ≤ nsPerSecond) (hd : 1 ≤ d) :
    ceilDiv (ns * f) (d * nsPerSecond) ≤ f :=
  ceilDiv_le_of_le_mul (mul_nsPerSecond_pos hd) <|
    calc ns * f ≤ (d * nsPerSecond) * f := Nat.mul_le_mul_right f (hns.trans (Nat.le_mul_of_pos_left _ hd))
      _ = f * (d * nsPerSecond) := Nat.mul_comm _ _

/-- Settles O37: both times are at most one second, so both counts are at most `F_TIMER`. -/
theorem waitCountsFit32Bits : Obligations.WaitCountsFit32Bits := by
  intro p d htimeout hidle hf hd
  have hlt : p.fTimer < 2 ^ 32 := Nat.lt_succ_of_le hf
  have hidle_le : p.idleNs ≤ nsPerSecond := hidle.trans_le (by decide)
  have htimeout_le : p.timeoutNs ≤ nsPerSecond := htimeout.trans_le (by decide)
  exact ⟨(ceilDiv_le_fTimer p.fTimer hidle_le hd).trans_lt hlt,
    (ceilDiv_le_fTimer p.fTimer htimeout_le hd).trans_lt hlt⟩

/-! ## The reset input -/

/-- A step on a script whose head is the reset input. -/
theorem step_reset {s : State} {rest : List HostOp} (h : s.env.script = .reset :: rest) :
    step s = .next (resetEncoder (s.setScript rest)) := by
  rw [step_eq_runEvent, h, nextEvent, runEvent]

/-- Settles O54: the step is the reset input, whose values are those of 10_state.md R46. -/
theorem resetInput : Obligations.ResetInput := by
  intro s rest h
  exact step_reset h

end Sys2Proof.Machine
end
